-- ==== Sys2Proof/Word.lean ====
section
/-!
DEFINITION. The machine's word types.
-/

namespace Sys2Proof

/-- A scalar register, a control register or an address (R12, R47). -/
abbrev Word := BitVec 64

/-- A byte of memory. -/
abbrev Byte := BitVec 8

/-- One lane's share of a vector register (R13). -/
abbrev Lane := BitVec 32

/-- A mask or a flag set: one bit per lane (R13). -/
abbrev Mask := BitVec 128

/-- The 40-bit tag of a 64-byte block (R19). -/
abbrev Tag := BitVec 40

end Sys2Proof
end

