-- ==== Sys2Proof/Syntax.lean ====
section
/-!
DEFINITION. The instructions of the Nolpor NP7 as data: one constructor of `Instr` for each row of the opcode table.
An encoded instruction carries every field of its encoding, the reserved ones included (R85), so that no bit of a word is
lost. A row without an encoding is one whole step of another agent of the package; its constructor says which.
-/

namespace Sys2Proof

/-- The fields of the R format (R82): t bits of `b` and `a`, and the register fields. -/
structure RArgs where
  tb : BitVec 1
  ta : BitVec 1
  b : BitVec 5
  a : BitVec 5
  d : BitVec 5
  deriving DecidableEq, Repr

/-- The fields of a returning AMO (R94): the reserved bits 31:30, the 32-bit width bit, and the R fields. -/
structure AmoArgs where
  r : BitVec 2
  w : BitVec 1
  tb : BitVec 1
  ta : BitVec 1
  b : BitVec 5
  a : BitVec 5
  d : BitVec 5
  deriving DecidableEq, Repr

/-- The fields of a posted AMO (R94), whose `d` field is s0. -/
structure AmoPArgs where
  r : BitVec 2
  w : BitVec 1
  tb : BitVec 1
  ta : BitVec 1
  b : BitVec 5
  a : BitVec 5
  deriving DecidableEq, Repr

/-- The fields of a copy instruction (R100): reserved bit 31 and bits 30:29, queue, R fields. -/
structure CpyArgs where
  r : BitVec 1
  e : BitVec 2
  q : BitVec 2
  tb : BitVec 1
  ta : BitVec 1
  b : BitVec 5
  a : BitVec 5
  d : BitVec 5
  deriving DecidableEq, Repr

/-- The fields of QFENCE (R100): reserved bit 31, queue mask, R fields. -/
structure QfArgs where
  r : BitVec 1
  k : BitVec 4
  tb : BitVec 1
  ta : BitVec 1
  b : BitVec 5
  a : BitVec 5
  d : BitVec 5
  deriving DecidableEq, Repr

/-- The fields of the I format (R82). -/
structure IArgs where
  imm : BitVec 14
  ta : BitVec 1
  a : BitVec 5
  d : BitVec 5
  deriving DecidableEq, Repr

/-- The fields of SHI (R92): reserved imm14<13:8>, shift amount. -/
structure ShArgs where
  r : BitVec 6
  n : BitVec 6
  ta : BitVec 1
  a : BitVec 5
  d : BitVec 5
  deriving DecidableEq, Repr

/-- The fields of the U and J formats (R82). -/
structure UArgs where
  imm : BitVec 20
  d : BitVec 5
  deriving DecidableEq, Repr

/-- The fields of the B format (R82). -/
structure BArgs where
  disp : BitVec 12
  b : BitVec 5
  a : BitVec 5
  deriving DecidableEq, Repr

/-- The fields of the M format (R82). -/
structure MArgs where
  imm : BitVec 9
  hint : BitVec 2
  size : BitVec 3
  t : BitVec 1
  base : BitVec 5
  d : BitVec 5
  deriving DecidableEq, Repr

/-- The fields of a prefetch: the M format with `d` = s0 (R93). -/
structure MpArgs where
  imm : BitVec 9
  hint : BitVec 2
  size : BitVec 3
  t : BitVec 1
  base : BitVec 5
  deriving DecidableEq, Repr

/-- The fields of a store with hint .upd: the M format with hint 3 (R93). -/
structure MuArgs where
  imm : BitVec 9
  size : BitVec 3
  t : BitVec 1
  base : BitVec 5
  d : BitVec 5
  deriving DecidableEq, Repr

/-- The fields of the S format (R82). -/
structure SArgs where
  x : BitVec 12
  d : BitVec 5
  deriving DecidableEq, Repr

/-- The fields of the V format (R158). -/
structure VArgs where
  ty : BitVec 3
  bs : BitVec 1
  t : BitVec 1
  vb : BitVec 5
  va : BitVec 5
  vd : BitVec 5
  deriving DecidableEq, Repr

/-- The fields of the V format where the type field selects the function. -/
structure VnArgs where
  bs : BitVec 1
  t : BitVec 1
  vb : BitVec 5
  va : BitVec 5
  vd : BitVec 5
  deriving DecidableEq, Repr

/-- The fields of VCVT (R97): high source bits, .crest, .sat, then the V fields. -/
structure CvArgs where
  h : BitVec 2
  crest : BitVec 1
  sat : BitVec 1
  ty : BitVec 3
  bs : BitVec 1
  t : BitVec 1
  vb : BitVec 5
  va : BitVec 5
  vd : BitVec 5
  deriving DecidableEq, Repr

/-- The fields of TSEQ with va = s0 (R233). -/
structure TfArgs where
  ty : BitVec 3
  bs : BitVec 1
  t : BitVec 1
  vb : BitVec 5
  vd : BitVec 5
  deriving DecidableEq, Repr

/-- The fields of PREFIX (R86). -/
structure PArgs where
  r : BitVec 12
  usec : BitVec 1
  c : BitVec 5
  rm : BitVec 3
  zero : BitVec 1
  mask : BitVec 3
  deriving DecidableEq, Repr

/-- The fields of a hint-region word (R102): its bits 31:7 and 2:1. -/
structure HintArgs where
  j : BitVec 25
  h : BitVec 2
  deriving DecidableEq, Repr

/-- The fields of a 16-bit form (R89). -/
structure HArgs where
  tb : BitVec 1
  vb : BitVec 5
  vd : BitVec 5
  deriving DecidableEq, Repr

/-- One constructor per row of the opcode table: the encoded instructions, then the steps of the other agents. -/
inductive Instr where
  /-- ADD (R130): Writes d with a + b modulo 2^64. -/
  | add (o : RArgs)
  /-- SUB (R130): Writes d with a − b modulo 2^64. -/
  | sub (o : RArgs)
  /-- AND (R130): Writes d with the bitwise AND of a and b. -/
  | and (o : RArgs)
  /-- OR (R130): Writes d with the bitwise OR of a and b. -/
  | or (o : RArgs)
  /-- XOR (R130): Writes d with the bitwise XOR of a and b. -/
  | xor (o : RArgs)
  /-- SLL (R130): Shifts a left by b<5:0>. -/
  | sll (o : RArgs)
  /-- SRL (R130): Shifts a right logically by b<5:0>. -/
  | srl (o : RArgs)
  /-- SRA (R130): Shifts a right arithmetically by b<5:0>. -/
  | sra (o : RArgs)
  /-- ROL (R130): Rotates a left by b<5:0>. -/
  | rol (o : RArgs)
  /-- SLT (R130): Writes 1 if a < b signed, else 0. -/
  | slt (o : RArgs)
  /-- SLTU (R130): Writes 1 if a < b unsigned, else 0. -/
  | sltu (o : RArgs)
  /-- MIN (R130): Writes the signed minimum of a and b. -/
  | min (o : RArgs)
  /-- MAX (R130): Writes the signed maximum of a and b. -/
  | max (o : RArgs)
  /-- MINU (R130): Writes the unsigned minimum of a and b. -/
  | minu (o : RArgs)
  /-- MAXU (R130): Writes the unsigned maximum of a and b. -/
  | maxu (o : RArgs)
  /-- CMOV (R130): Writes b to d when a is nonzero, otherwise keeps the old d. -/
  | cmov (o : RArgs)
  /-- MUL (R130): Writes the low 64 bits of a × b. -/
  | mul (o : RArgs)
  /-- MULH (R130): Writes the high 64 bits of the signed product. -/
  | mulh (o : RArgs)
  /-- MULHU (R130): Writes the high 64 bits of the unsigned product. -/
  | mulhu (o : RArgs)
  /-- DIV (R131): Writes the signed quotient rounded toward zero, with fixed results for the special cases. -/
  | div (o : RArgs)
  /-- DIVU (R131): Writes the unsigned quotient. -/
  | divu (o : RArgs)
  /-- REM (R131): Writes the signed remainder with the sign of a. -/
  | rem (o : RArgs)
  /-- REMU (R131): Writes the unsigned remainder. -/
  | remu (o : RArgs)
  /-- CLZ (R130): Counts leading zero bits of a. -/
  | clz (o : RArgs)
  /-- CTZ (R130): Counts trailing zero bits of a. -/
  | ctz (o : RArgs)
  /-- POPC (R130): Counts one bits of a. -/
  | popc (o : RArgs)
  /-- OMK (R132): Builds an object address from identifier and offset. -/
  | omk (o : RArgs)
  /-- OID (R132): Extracts the object identifier of an address. -/
  | oid (o : RArgs)
  /-- OOFF (R132): Extracts the offset of an address. -/
  | ooff (o : RArgs)
  /-- LSPC (R132): Builds a local-space address from space code and offset. -/
  | lspc (o : RArgs)
  /-- ADDI (R134): Adds a sign-extended 14-bit immediate to a. -/
  | addi (o : IArgs)
  /-- ANDI (R134): ANDs a with the sign-extended immediate. -/
  | andi (o : IArgs)
  /-- ORI (R134): ORs a with the sign-extended immediate. -/
  | ori (o : IArgs)
  /-- XORI (R134): XORs a with the sign-extended immediate. -/
  | xori (o : IArgs)
  /-- SLTI (R134): Compares a signed against the immediate. -/
  | slti (o : IArgs)
  /-- SLTIU (R134): Compares a unsigned against the sign-extended immediate. -/
  | sltiu (o : IArgs)
  /-- SLLI (R135): Shifts a left by an immediate amount. -/
  | slli (o : ShArgs)
  /-- SRLI (R135): Shifts a right logically by an immediate amount. -/
  | srli (o : ShArgs)
  /-- SRAI (R135): Shifts a right arithmetically by an immediate amount. -/
  | srai (o : ShArgs)
  /-- ROLI (R135): Rotates a left by an immediate amount. -/
  | roli (o : ShArgs)
  /-- LUI (R136): Writes the sign-extended upper immediate to d. -/
  | lui (o : UArgs)
  /-- AUIPC (R136): Writes PC plus the upper immediate to d. -/
  | auipc (o : UArgs)
  /-- BEQ (R137): Branches when a equals b. -/
  | beq (o : BArgs)
  /-- BNE (R137): Branches when a differs from b. -/
  | bne (o : BArgs)
  /-- BLT (R137): Branches when a < b signed. -/
  | blt (o : BArgs)
  /-- BGE (R137): Branches when a ≥ b signed. -/
  | bge (o : BArgs)
  /-- BLTU (R137): Branches when a < b unsigned. -/
  | bltu (o : BArgs)
  /-- BGEU (R137): Branches when a ≥ b unsigned. -/
  | bgeu (o : BArgs)
  /-- JAL (R138): Writes PC + 4 to d and jumps by the displacement. -/
  | jal (o : UArgs)
  /-- JALR (R138): Writes PC + 4 to d and jumps to a plus the immediate with bit 0 cleared. -/
  | jalr (o : IArgs)
  /-- LD (R142): Loads 1–8 bytes at base plus scaled offset into d, sign- or zero-extended. -/
  | ld (o : MArgs)
  /-- PREFETCH (R144): An LD with d = s0 brings the block into caches per its hint and never faults. -/
  | prefetch (o : MpArgs)
  /-- ST (R143): Stores the low bytes of d at base plus scaled offset, held back on object memory. -/
  | st (o : MArgs)
  /-- ST_UPD (R402): An update-class store that writes nothing when the skip flag is set for its step. -/
  | stUpd (o : MuArgs)
  /-- AMO_ADD (R148): Returning atomic add at the home, writing the old value to d. -/
  | amoAdd (o : AmoArgs)
  /-- AMO_AND (R148): Returning atomic AND at the home. -/
  | amoAnd (o : AmoArgs)
  /-- AMO_OR (R148): Returning atomic OR at the home. -/
  | amoOr (o : AmoArgs)
  /-- AMO_XOR (R148): Returning atomic XOR at the home. -/
  | amoXor (o : AmoArgs)
  /-- AMO_MIN (R148): Returning atomic signed minimum at the home. -/
  | amoMin (o : AmoArgs)
  /-- AMO_MAX (R148): Returning atomic signed maximum at the home. -/
  | amoMax (o : AmoArgs)
  /-- AMO_MINU (R148): Returning atomic unsigned minimum at the home. -/
  | amoMinu (o : AmoArgs)
  /-- AMO_MAXU (R148): Returning atomic unsigned maximum at the home. -/
  | amoMaxu (o : AmoArgs)
  /-- AMO_SWAP (R148): Returning atomic swap at the home. -/
  | amoSwap (o : AmoArgs)
  /-- AMO_CAS (R148): Returning compare-and-swap against d's expected value. -/
  | amoCas (o : AmoArgs)
  /-- AMO_ADD_P (R151): Posted atomic add taking an outbox entry. -/
  | amoAddP (o : AmoPArgs)
  /-- AMO_AND_P (R151): Posted atomic AND. -/
  | amoAndP (o : AmoPArgs)
  /-- AMO_OR_P (R151): Posted atomic OR. -/
  | amoOrP (o : AmoPArgs)
  /-- AMO_XOR_P (R151): Posted atomic XOR. -/
  | amoXorP (o : AmoPArgs)
  /-- AMO_MIN_P (R151): Posted atomic signed minimum. -/
  | amoMinP (o : AmoPArgs)
  /-- AMO_MAX_P (R151): Posted atomic signed maximum. -/
  | amoMaxP (o : AmoPArgs)
  /-- AMO_MINU_P (R151): Posted atomic unsigned minimum. -/
  | amoMinuP (o : AmoPArgs)
  /-- AMO_MAXU_P (R151): Posted atomic unsigned maximum. -/
  | amoMaxuP (o : AmoPArgs)
  /-- AMO_SWAP_P (R151): Posted atomic swap. -/
  | amoSwapP (o : AmoPArgs)
  /-- ACQ_X (R310): Commits and acquires a cairn exclusively, locally or from its home. -/
  | acqX (o : RArgs)
  /-- ACQ_S (R310): Commits and acquires a cairn shared. -/
  | acqS (o : RArgs)
  /-- TRYACQ_X (R320): Tries an exclusive acquire and writes 0 acquired or 1 busy without queueing. -/
  | tryacqX (o : RArgs)
  /-- REL (R312): Commits and releases the hold of a cairn, locally or at its home. -/
  | rel (o : RArgs)
  /-- BIND (R322): Allocates a sticky binding slot for a cairn without acquiring. -/
  | bind (o : RArgs)
  /-- UNBIND (R322): Writes back and frees a cairn's binding slot. -/
  | unbind (o : RArgs)
  /-- FENCE_G (R323): Commits, writes back all committed lines, waits, and drops clean unbound lines. -/
  | fenceG (o : RArgs)
  /-- FENCE_L (R323): As FENCE.G's write-back and wait, then invalidates the instruction cache. -/
  | fenceL (o : RArgs)
  /-- COMMIT (R323): Commits the region and does nothing else. -/
  | commit (o : RArgs)
  /-- MON (R324): Arms the core's monitor on a 64-byte block. -/
  | mon (o : RArgs)
  /-- MWAIT (R324): Waits clock-gated until the monitor triggers. -/
  | mwait (o : RArgs)
  /-- WAITT (R325): Sleeps until a promise time, then checks the copies due. -/
  | waitt (o : RArgs)
  /-- FORK (R341): Places a task record in the outbox for the core's own deque. -/
  | fork (o : RArgs)
  /-- SPAWN (R341): Places a task record in the outbox for another core's deque. -/
  | spawn (o : RArgs)
  /-- DONE (R342): Commits, drains, ends holds, frees the message slot and reaches a boundary. -/
  | done (o : RArgs)
  /-- YIELD (R343): Ends the activation and pushes a continuation record. -/
  | yield (o : RArgs)
  /-- DEC (R345): Sends a decrement of a dependency counter through the outbox. -/
  | dec (o : RArgs)
  /-- SEND (R260): Captures message bytes into an outbox entry for a channel or the host queue. -/
  | send (o : RArgs)
  /-- SEND_A (R260): Commits, releases a cairn, and sends a message carrying an implicit shared acquire. -/
  | sendA (o : RArgs)
  /-- HOLD (R261): Sends an outbox entry that sets a channel's HOLD bit. -/
  | hold (o : RArgs)
  /-- READY (R261): Sends an outbox entry that sets a channel's READY bit. -/
  | ready (o : RArgs)
  /-- CHBIND (R262): Writes an entry of the core's own channel table from a 16-byte image. -/
  | chbind (o : RArgs)
  /-- GANG (R264): Forms a caravan of 2, 4 or 8 cores and writes a status. -/
  | gang (o : RArgs)
  /-- DISBAND (R266): Commits each member and dissolves the caravan. -/
  | disband (o : RArgs)
  /-- CREST (R269): Commits, contributes CREG to a crest context and waits for the release. -/
  | crest (o : RArgs)
  /-- BAR (R269): Commits, contributes zero to a crest context and waits for the release. -/
  | bar (o : RArgs)
  /-- CSRR (R154): Reads a control register into d. -/
  | csrr (o : SArgs)
  /-- CSRW (R154): Writes the writable bits of a control register. -/
  | csrw (o : SArgs)
  /-- CSRS (R154): Sets bits of a control register. -/
  | csrs (o : SArgs)
  /-- CSRC (R154): Clears bits of a control register. -/
  | csrc (o : SArgs)
  /-- TRAP (R155): Retires and freezes the core with cause 0x0B and the code in DET1. -/
  | trap (o : SArgs)
  /-- BRK (R155): Retires and freezes the core with cause 0x0A. -/
  | brk (o : SArgs)
  /-- HALT (R155): Retires and freezes the core with cause 0x0B, DET1 all ones. -/
  | halt (o : SArgs)
  /-- SLEEP (R156): Sleeps clock-gated until CYC reaches s or a yield request arrives. -/
  | sleep (o : SArgs)
  /-- TMARK (R157): Appends a mark record to the trace ring when tracing is enabled. -/
  | tmark (o : SArgs)
  /-- FADD (R163): Vector floating add. -/
  | fadd (o : VArgs)
  /-- FSUB (R163): Vector floating subtract. -/
  | fsub (o : VArgs)
  /-- FMUL (R163): Vector floating multiply. -/
  | fmul (o : VArgs)
  /-- FFMA (R163): Vector fused a × b + d, rounded once. -/
  | ffma (o : VArgs)
  /-- FFMS (R163): Vector fused a × b − d, rounded once. -/
  | ffms (o : VArgs)
  /-- FNMA (R163): Vector fused −(a × b) + d, rounded once. -/
  | fnma (o : VArgs)
  /-- FDIV (R163): Vector floating divide. -/
  | fdiv (o : VArgs)
  /-- FSQRT (R163): Vector floating square root. -/
  | fsqrt (o : VArgs)
  /-- FMIN (R164): Vector minimumNumber. -/
  | fmin (o : VArgs)
  /-- FMAX (R164): Vector maximumNumber. -/
  | fmax (o : VArgs)
  /-- FABS (R164): Clears the sign bit of each element. -/
  | fabs (o : VArgs)
  /-- FNEG (R164): Inverts the sign bit of each element. -/
  | fneg (o : VArgs)
  /-- FCPYS (R164): Copies the sign of b onto a. -/
  | fcpys (o : VArgs)
  /-- FRND (R164): Rounds each element to an integral value in the prefix's mode. -/
  | frnd (o : VArgs)
  /-- IADD (R166): Vector integer add. -/
  | iadd (o : VArgs)
  /-- ISUB (R166): Vector integer subtract. -/
  | isub (o : VArgs)
  /-- IMUL (R166): Vector integer multiply, low bits. -/
  | imul (o : VArgs)
  /-- IMULH (R166): Vector signed multiply, high bits. -/
  | imulh (o : VArgs)
  /-- IMULHU (R166): Vector unsigned multiply, high bits. -/
  | imulhu (o : VArgs)
  /-- IAND (R166): Vector bitwise AND. -/
  | iand (o : VArgs)
  /-- IOR (R166): Vector bitwise OR. -/
  | ior (o : VArgs)
  /-- IXOR (R166): Vector bitwise XOR. -/
  | ixor (o : VArgs)
  /-- ISHL (R166): Vector shift left. -/
  | ishl (o : VArgs)
  /-- ISHR (R166): Vector logical shift right. -/
  | ishr (o : VArgs)
  /-- ISAR (R166): Vector arithmetic shift right. -/
  | isar (o : VArgs)
  /-- IMIN (R166): Vector signed minimum. -/
  | imin (o : VArgs)
  /-- IMAX (R166): Vector signed maximum. -/
  | imax (o : VArgs)
  /-- IABS (R166): Vector absolute value. -/
  | iabs (o : VArgs)
  /-- IADDS (R166): Vector saturating add. -/
  | iadds (o : VArgs)
  /-- ISUBS (R166): Vector saturating subtract. -/
  | isubs (o : VArgs)
  /-- IPOPC (R166): Vector population count. -/
  | ipopc (o : VArgs)
  /-- ICLZ (R166): Vector count of leading zeros. -/
  | iclz (o : VArgs)
  /-- IMINU (R166): Vector unsigned minimum. -/
  | iminu (o : VArgs)
  /-- IMAXU (R166): Vector unsigned maximum. -/
  | imaxu (o : VArgs)
  /-- FCEQ (R167): Sets mask bits where a = b. -/
  | fceq (o : VArgs)
  /-- FCLT (R167): Sets mask bits where a < b, ordered. -/
  | fclt (o : VArgs)
  /-- FCLE (R167): Sets mask bits where a ≤ b, ordered. -/
  | fcle (o : VArgs)
  /-- FCUN (R167): Sets mask bits where a or b is NaN. -/
  | fcun (o : VArgs)
  /-- FCNE (R167): Sets mask bits where not a = b. -/
  | fcne (o : VArgs)
  /-- ICEQ (R167): Sets mask bits where integers are equal. -/
  | iceq (o : VArgs)
  /-- ICLT (R167): Sets mask bits where a < b signed. -/
  | iclt (o : VArgs)
  /-- ICLTU (R167): Sets mask bits where a < b unsigned. -/
  | icltu (o : VArgs)
  /-- ICNE (R167): Sets mask bits where integers differ. -/
  | icne (o : VArgs)
  /-- FCLASS (R168): Writes a one-hot class code for each element. -/
  | fclass (o : VArgs)
  /-- MAND (R167): ANDs two masks or flag sets into a mask. -/
  | mand (o : VArgs)
  /-- MOR (R167): ORs two masks or flag sets into a mask. -/
  | mor (o : VArgs)
  /-- MXOR (R167): XORs two masks or flag sets into a mask. -/
  | mxor (o : VArgs)
  /-- MANDN (R167): Writes ka AND NOT kb into a mask. -/
  | mandn (o : VArgs)
  /-- MNOT (R167): Writes NOT ka into a mask. -/
  | mnot (o : VArgs)
  /-- CVT (R170): Converts the fields of each lane between element codes. -/
  | cvt (o : CvArgs)
  /-- CVTS (R170): Converts one scalar value and writes it to every active lane. -/
  | cvts (o : CvArgs)
  /-- FRCP (R165): Vector reciprocal within the stated error bound. -/
  | frcp (o : VArgs)
  /-- FRSQ (R165): Vector reciprocal square root. -/
  | frsq (o : VArgs)
  /-- FEX2 (R165): Vector base-2 exponential. -/
  | fex2 (o : VArgs)
  /-- FLG2 (R165): Vector base-2 logarithm. -/
  | flg2 (o : VArgs)
  /-- FSIN (R165): Vector sine. -/
  | fsin (o : VArgs)
  /-- FCOS (R165): Vector cosine. -/
  | fcos (o : VArgs)
  /-- FTANH (R165): Vector hyperbolic tangent. -/
  | ftanh (o : VArgs)
  /-- RSUM (R43): Sums active elements by a fixed pairwise tree into a scalar. -/
  | rsum (o : VArgs)
  /-- RMAX (R172): Writes the maximum of active elements to a scalar. -/
  | rmax (o : VArgs)
  /-- RMIN (R172): Writes the minimum of active elements to a scalar. -/
  | rmin (o : VArgs)
  /-- RAMAX (R173): Writes the largest magnitude and folds elements into CREG. -/
  | ramax (o : VArgs)
  /-- ARGMAX (R172): Writes the index of the first maximum element. -/
  | argmax (o : VArgs)
  /-- SCAN (R172): Writes running sums of active elements. -/
  | scan (o : VArgs)
  /-- VOTE_ANY (R172): Writes 1 if any active bit of a mask or flag set is set. -/
  | voteAny (o : VnArgs)
  /-- VOTE_ALL (R172): Writes 1 if every active bit is set. -/
  | voteAll (o : VnArgs)
  /-- VOTE_NONE (R172): Writes 1 if no active bit is set. -/
  | voteNone (o : VnArgs)
  /-- POPM (R172): Counts set bits of a mask in active lanes. -/
  | popm (o : VArgs)
  /-- BCAST (R174): Writes a scalar into every element. -/
  | bcast (o : VArgs)
  /-- XTR (R174): Extracts one element into a scalar, ignoring the mask. -/
  | xtr (o : VArgs)
  /-- INS (R174): Inserts a scalar into one element. -/
  | ins (o : VArgs)
  /-- PERM (R174): Permutes elements by an index vector. -/
  | perm (o : VArgs)
  /-- SLIDE (R174): Slides elements by a signed amount. -/
  | slide (o : VArgs)
  /-- IOTA (R174): Writes start + j into element j. -/
  | iota (o : VArgs)
  /-- VLD (R177): Loads consecutive elements from base plus index. -/
  | vld (o : VArgs)
  /-- VLDS (R177): Loads elements at a signed byte stride. -/
  | vlds (o : VArgs)
  /-- VST (R177): Stores consecutive elements. -/
  | vst (o : VArgs)
  /-- VSTS (R177): Stores elements at a signed byte stride. -/
  | vsts (o : VArgs)
  /-- VGATH (R178): Gathers elements from base plus per-lane offsets. -/
  | vgath (o : VArgs)
  /-- VSCAT (R178): Scatters elements to base plus per-lane offsets. -/
  | vscat (o : VArgs)
  /-- VLDT (R179): Loads a 16-row tile and writes it transposed. -/
  | vldt (o : VArgs)
  /-- VLDL (R180): Loads from each lane's own slice. -/
  | vldl (o : VArgs)
  /-- VSTL (R180): Stores to each lane's own slice. -/
  | vstl (o : VArgs)
  /-- VTAG (R181): Reads a block's tag into a scalar. -/
  | vtag (o : VArgs)
  /-- VSTAG (R181): Writes a block's 40-bit tag unchanged. -/
  | vstag (o : VArgs)
  /-- QNT (R185): Quantises an F32 vector into scaled blocks with chosen quarter scales. -/
  | qnt (o : VArgs)
  /-- DQNT (R187): Dequantises a run of blocks into an F32 vector. -/
  | dqnt (o : VArgs)
  /-- UNPK (R188): Expands a storage-only block into E4M3 blocks in memory. -/
  | unpk (o : VnArgs)
  /-- UNPK_T (R188): Transposes nibbles within groups of eight lanes. -/
  | unpkT (o : VnArgs)
  /-- PACK (R186): Packs field 0 of each lane bit for bit into tagged blocks. -/
  | pack (o : VArgs)
  /-- CTAB (R190): Decodes C8 or C4 codes to F32 entries. -/
  | ctab (o : VArgs)
  /-- CTENC (R190): Encodes F32 values to the nearest table code. -/
  | ctenc (o : VArgs)
  /-- RNG (R191): Writes Philox random words or uniform F32 values. -/
  | rng (o : VArgs)
  /-- CTLD (R189): Loads the C8 or C4 code table from memory. -/
  | ctld (o : VArgs)
  /-- MMA (R197): Checks operand blocks and accumulates A·Bᵀ into a tile. -/
  | mma (o : VArgs)
  /-- MZ (R200): Sets every tile element to zero. -/
  | mz (o : VArgs)
  /-- MLD (R201): Loads a tile from memory. -/
  | mld (o : VArgs)
  /-- MST (R203): Converts and stores a tile under an options word. -/
  | mst (o : VArgs)
  /-- MRD (R204): Copies four tile rows into a vector register. -/
  | mrd (o : VArgs)
  /-- MWR (R204): Copies a vector register into four tile rows. -/
  | mwr (o : VArgs)
  /-- MCFG_MODE (R205): Sets tile accumulator formats and I32 saturation. -/
  | mcfgMode (o : VnArgs)
  /-- MCFG_SCALE (R205): Sets the S-format operand scales SA and SB. -/
  | mcfgScale (o : VnArgs)
  /-- CPY (R209): Checks a descriptor, commits, and queues a copy with a promise. -/
  | cpy (o : CpyArgs)
  /-- CPYA (R211): Queues a copy that adds source into destination elementwise. -/
  | cpya (o : CpyArgs)
  /-- CPYG (R212): Queues a gather copy of list entries into one run. -/
  | cpyg (o : CpyArgs)
  /-- QFENCE (R215): Waits until earlier operations of the named queues are done. -/
  | qfence (o : QfArgs)
  /-- CSTAT (R216): Writes the promise of a queue's youngest undone operation, or 0. -/
  | cstat (o : CpyArgs)
  /-- REPB (R218): Captures the next n vector or matrix instructions without executing them. -/
  | repb (o : RArgs)
  /-- REPX (R219): Marks the renamed footprint empty and starts the sequencer. -/
  | repx (o : RArgs)
  /-- REPW (R221): Waits until the sequencer is idle and its footprint full. -/
  | repw (o : RArgs)
  /-- TSEQ (R236): Initialises a sequence from a descriptor. -/
  | tseq (o : VArgs)
  /-- TSEQ_FREE (R236): Zeroes a sequence record. -/
  | tseqFree (o : TfArgs)
  /-- WSET (R237): Installs a watch slot from a descriptor and writes a status. -/
  | wset (o : VArgs)
  /-- TCOMMIT (R239): Commits one token per lane and takes the winning slot action. -/
  | tcommit (o : VArgs)
  /-- TDRAFT (R240): Appends one draft token per lane. -/
  | tdraft (o : VArgs)
  /-- TCONF (R241): Confirms up to k drafts, truncating at the first hit. -/
  | tconf (o : VArgs)
  /-- TREAD (R242): Reads one word of a sequence record indivisibly. -/
  | tread (o : VArgs)
  /-- WCLR (R238): Zeroes a watch slot. -/
  | wclr (o : VArgs)
  /-- EXROUTE (R376): Routes a token count to a replica slot and returns its descriptor. -/
  | exroute (o : RArgs)
  /-- EXSPAWN (R386): Takes the lowest EMPTY slot as JOINING for a replica. -/
  | exspawn (o : RArgs)
  /-- EXACT (R387): Makes a slot ACTIVE at the current version and invalidates caches. -/
  | exact (o : RArgs)
  /-- EXRETIRE (R388): Retires a slot to EMPTY or DRAINING. -/
  | exretire (o : RArgs)
  /-- EXJOIN (R389): Reports completed backward work and optionally joins a partial. -/
  | exjoin (o : RArgs)
  /-- EXJOIN_F (R389): Final join of a DRAINING slot, making it HANDED. -/
  | exjoinF (o : RArgs)
  /-- EXSTAT (R390): Reads an expert's roster word. -/
  | exstat (o : RArgs)
  /-- EXPUB (R391): Closes the step and publishes a new weight version. -/
  | expub (o : RArgs)
  /-- OPTA (R405): Applies the optimizer update to a group of 2,048 parameters. -/
  | opta (o : RArgs)
  /-- OPTW (R406): Encodes staged moments as C8 codes and writes them with tags. -/
  | optw (o : RArgs)
  /-- SKIPSET (R407): Sets the package skip flag for a step. -/
  | skipset (o : RArgs)
  /-- SKIPCLR (R407): Clears the skip flag if it names the given step. -/
  | skipclr (o : RArgs)
  /-- PREFIX (R86): Supplies mask, zero, rounding and c to the following prefixable instruction. -/
  | pfx (o : PArgs)
  /-- HINT (R102): A hint-region word that executes as a no-operation. -/
  | hint (o : HintArgs)
  /-- VMOV_16 (R89): 16-bit form: vd := vb. -/
  | vmov16 (o : HArgs)
  /-- FADD_16 (R89): 16-bit form of F32 add. -/
  | fadd16 (o : HArgs)
  /-- FSUB_16 (R89): 16-bit form of F32 subtract. -/
  | fsub16 (o : HArgs)
  /-- FMUL_16 (R89): 16-bit form of F32 multiply. -/
  | fmul16 (o : HArgs)
  /-- FMAX_16 (R89): 16-bit form of F32 maximum. -/
  | fmax16 (o : HArgs)
  /-- FMIN_16 (R89): 16-bit form of F32 minimum. -/
  | fmin16 (o : HArgs)
  /-- FABS_16 (R89): 16-bit form of F32 absolute value of vb. -/
  | fabs16 (o : HArgs)
  /-- FNEG_16 (R89): 16-bit form of F32 negation of vb. -/
  | fneg16 (o : HArgs)
  /-- IADD_16 (R89): 16-bit form of I32 add. -/
  | iadd16 (o : HArgs)
  /-- ISUB_16 (R89): 16-bit form of I32 subtract. -/
  | isub16 (o : HArgs)
  /-- IAND_16 (R89): 16-bit form of I32 AND. -/
  | iand16 (o : HArgs)
  /-- IOR_16 (R89): 16-bit form of I32 OR. -/
  | ior16 (o : HArgs)
  /-- IXOR_16 (R89): 16-bit form of I32 XOR. -/
  | ixor16 (o : HArgs)
  /-- ISHL_16 (R89): 16-bit form of I32 shift left. -/
  | ishl16 (o : HArgs)
  /-- ISHR_16 (R89): 16-bit form of I32 logical shift right. -/
  | ishr16 (o : HArgs)
  /-- IMUL_16 (R89): 16-bit form of I32 multiply. -/
  | imul16 (o : HArgs)
  /-- DATA_RETURN (R49): The result of a load, returning atomic, MRD or EXROUTE-like producer arrives and fills its register. -/
  | dataReturn (core : Nat) (n : Nat)
  /-- TRANSLATION_WALK (R285): A walk reads the object entry and extent descriptors and fills the translation cache or faults. -/
  | translationWalk (core : Nat) (addr : Word)
  /-- FAULT_PACKET_SEND (R76): A waiting fault packet is delivered to channel 63 of the supervisor. -/
  | faultPacketSend (core : Nat)
  /-- OUTBOX_ENTRY_LEAVE (R255): The committed entry at the outbox head reserves a place at its destination and leaves. -/
  | outboxEntryLeave (core : Nat)
  /-- MESSAGE_DELIVERY (R255): A message arrives, is written into a free slot and counted in PEND, or is refused. -/
  | messageDelivery (n : Nat)
  /-- MESSAGE_REFUSAL (R256): A refusal returns to the sender, restoring the entry and freezing with cause 0x0F. -/
  | messageRefusal (n : Nat)
  /-- HOLD_ARRIVAL (R257): A HOLD entry arrives and sets the channel's HOLD bit. -/
  | holdArrival (n : Nat)
  /-- READY_ARRIVAL (R257): A READY entry arrives and sets the channel's READY bit. -/
  | readyArrival (n : Nat)
  /-- TASK_PUSH (R341): A FORK or SPAWN record arrives and is pushed onto a deque bottom. -/
  | taskPush (n : Nat)
  /-- DEC_AT_HOME (R347): A decrement arrives at its counter's home and is performed. -/
  | decAtHome (n : Nat)
  /-- DEFERRED_PUSH (R349): A push held in the home's push buffer goes onto the deque once it has room. -/
  | deferredPush (core : Nat)
  /-- DEC_REFUSAL (R348): A refused DEC returns and freezes its sender with cause 0x06. -/
  | decRefusal (n : Nat)
  /-- ATOMIC_AT_HOME (R148): An atomic or uncached access is performed indivisibly at its home. -/
  | atomicAtHome (n : Nat)
  /-- WRITE_BACK_MERGE (R63): A written-back line merges at home under its byte and tag masks. -/
  | writeBackMerge (core : Nat) (line : Word)
  /-- ACTIVATION_CHOICE (R334): At a boundary the core chooses its next work in priority order. -/
  | activationChoice (core : Nat)
  /-- IDLE_WAKE (R336): An idle core is woken by new work and chooses again. -/
  | idleWake (core : Nat)
  /-- STEAL_PROBE (R338): A thief's probe takes a victim's oldest bulk record or last cursor index. -/
  | stealProbe (core : Nat)
  /-- YIELD_DEADLINE (R352): CYC reaches YDL without DONE or YIELD having retired. -/
  | yieldDeadline (core : Nat)
  /-- SLEEP_EXPIRY (R156): CYC reaches a SLEEP's wake time and the core resumes. -/
  | sleepExpiry (core : Nat)
  /-- MONITOR_TRIGGER (R324): A write at the monitored block's home, a yield request or a command wakes MWAIT. -/
  | monitorTrigger (core : Nat)
  /-- WAITT_EXPIRY (R325): CYC reaches a WAITT's time and due copies are checked. -/
  | waittExpiry (core : Nat)
  /-- COPY_CHUNK (R214): A 4 KiB chunk of a copy completes or fails. -/
  | copyChunk (core : Nat) (q : Nat)
  /-- MMA_ACCUMULATE (R197): An accepted MMA's accumulation completes in the engine. -/
  | mmaAccumulate (core : Nat)
  /-- REP_ITERATION (R219): The sequencer issues a captured instruction of an iteration. -/
  | repIteration (core : Nat)
  /-- HOME_ACQUIRE (R311): An acquire request arrives at the cairn's home and is granted or queued. -/
  | homeAcquire (n : Nat)
  /-- SURRENDER (R311): The last releaser's L1 writes back bound lines and reports LREL and local holds. -/
  | surrender (n : Nat)
  /-- ACQUIRE_GRANT (R310): A grant reaches the core and is recorded in the binding slot. -/
  | acquireGrant (n : Nat)
  /-- MESSAGE_ACQUIRE_GRANT (R58): The implicit acquire of a waiting SEND.A message is granted, making it eligible. -/
  | messageAcquireGrant (n : Nat)
  /-- RELEASE_AT_HOME (R312): A release told to the home records the releaser and grants waiters. -/
  | releaseAtHome (n : Nat)
  /-- ACQUIRE_WITHDRAWAL (R310): An aborted acquire withdraws its request or undoes its grant at the home. -/
  | acquireWithdrawal (core : Nat)
  /-- ACQUIRE_RETRY (R311): A request refused by a full waiter queue is resent after 64 cycles. -/
  | acquireRetry (core : Nat)
  /-- CREST_CONTRIBUTION (R269): A contribution reaches a crest context and may release the round. -/
  | crestContribution (n : Nat)
  /-- CRSC_LANDING (R269): A release lands in a participant's CRSC and its CREST or BAR retires. -/
  | crscLanding (n : Nat)
  /-- EXPERT_HOME_OPERATION (R370): An expert request is performed indivisibly at the entry's home. -/
  | expertHomeOperation (n : Nat)
  /-- EXPERT_ANSWER (R384): The home's answer to an expert request reaches the core. -/
  | expertAnswer (n : Nat)
  /-- LAUNCH_POST (R328): A 64-byte write to a queue doorbell enqueues a launch record. -/
  | launchPost (q : Nat) (record : List Byte)
  /-- LAUNCH_ADMISSION (R329): The package lead checks the head record of a queue and dispatches or rejects it. -/
  | launchAdmission (q : Nat)
  /-- STAMP_RECHECK (R329): Every 112 cycles the argument block stamp is read again. -/
  | stampRecheck (q : Nat)
  /-- RQGO_PUSH (R288): A write to RQGO pushes a requeued record with its park entry's holds and slot. -/
  | rqgoPush (cluster : Nat) (v : Word)
  /-- RQGO_DROP (R445): A write to RQGO with DROP discards a parked continuation. -/
  | rqgoDrop (cluster : Nat) (v : Word)
  /-- SDGO (R290): A write to SDGO starts a shoot-down of an object. -/
  | sdgo (unit : Nat) (v : Word)
  /-- SHOOTDOWN_COMPLETE (R291): A shoot-down completes, clearing BUSY and advancing COUNT. -/
  | shootdownComplete (unit : Nat)
  /-- PVGO (R354): A write to PVGO requests spatial pre-emption of cores of a launch. -/
  | pvgo (unit : Nat) (v : Word)
  /-- VACATE_HANDOFF (R355): A vacated core moves its continuation, slots and records to remaining cores. -/
  | vacateHandoff (core : Nat)
  /-- XTINV (R380): A write to XTINV invalidates an expert in every router cache. -/
  | xtinv (unit : Nat) (v : Word)
  /-- SKIPF_WRITE (R401): A host write sets the package skip flag. -/
  | skipfWrite (v : Word)
  /-- GOVERNOR_PERIOD (R409): Every 850 cycles the governor compares demand with power and picks a mode. -/
  | governorPeriod
  /-- ESNAP (R410): A write to ESNAP latches package energy and time. -/
  | esnap (v : Word)
  /-- PACKAGE_RESET (R413): Package reset clears state and starts the boot ROM. -/
  | packageReset
  /-- FIRMWARE_BOOT (R413): Verified firmware initialises tags, tables, capabilities and mailbox. -/
  | firmwareBoot
  /-- HMSG (R417): A 128-byte host write to HMSG places a message in the host message buffer. -/
  | hmsg (v : Word) (data : List Byte)
  /-- HOST_MESSAGE_LEAVE (R417): A buffered host message reserves a place and leaves for its channel. -/
  | hostMessageLeave
  /-- PACKAGE_SERVICE_MESSAGE_LEAVE (R420): A package service message enters the host queue once it has room. -/
  | packageServiceMessageLeave
  /-- CXL_MEM_READ (R421): A host read of device memory is served according to the page's bias. -/
  | cxlMemRead (addr : Word)
  /-- CXL_MEM_WRITE (R421): A host write to device memory merges at home. -/
  | cxlMemWrite (addr : Word) (data : List Byte)
  /-- HOST_SNOOP (R423): A host snoop is answered by L1 from committed bytes. -/
  | hostSnoop (addr : Word)
  /-- BFGO (R422): A write to BFGO starts a bias flip of a page. -/
  | bfgo (v : Word)
  /-- BIAS_FLIP_COMPLETE (R422): Write-backs are performed, the bias bit changes and held reads proceed. -/
  | biasFlipComplete
  /-- HOST_LINK_DOWN (R427): The host link goes down and host accesses fail or are dropped. -/
  | hostLinkDown
  /-- HOST_LINK_UP (R427): The host link returns and the drop is reported on channel 5. -/
  | hostLinkUp
  /-- EMGO (R426): A store to EMGO sends a message to a core of another package. -/
  | emgo (core : Nat) (v : Word)
  /-- ERG_RETRY (R426): A remote message answered with a retry is sent again after 1 µs. -/
  | ergRetry (core : Nat)
  /-- ERG_FLIT_ARRIVAL (R427): A flit arrives and is performed in sequence order, duplicates ignored. -/
  | ergFlitArrival (n : Nat)
  /-- ERG_ACK (R427): An acknowledgement frees flits from the replay buffer. -/
  | ergAck (n : Nat)
  /-- ERG_PORT_DOWN (R427): A port goes down and its unacknowledged flits are replayed on others. -/
  | ergPortDown (port : Nat)
  /-- ERG_UNREACHABLE (R427): No acknowledgement for 10 µs makes a package unreachable. -/
  | ergUnreachable (pkg : Nat)
  /-- ERG_LINK_TRAINING (R424): Link training sets the package number in PKGID. -/
  | ergLinkTraining (port : Nat)
  /-- SAMPLE_RECORD (R432): Every SMPINT cycles a sample record is written. -/
  | sampleRecord (core : Nat)
  /-- TRACE_FLUSH (R431): The 64-byte record buffer is written to the ring. -/
  | traceFlush (core : Nat)
  /-- RESUME (R78): Continues a frozen core at PC. -/
  | resume (core : Nat)
  /-- RESTART (R78): Aborts the region and continues at RPC. -/
  | restart (core : Nat)
  /-- KILL (R78): Aborts, releases the message slot and holds, and reaches a boundary. -/
  | kill (core : Nat)
  /-- STOP (R434): Requests a precise stop at the next activation boundary. -/
  | stop (core : Nat)
  /-- CANCEL (R434): Withdraws a stop request not yet taken effect. -/
  | cancel (core : Nat)
  /-- PRECISE_STOP (R434): The core reaches its boundary and stops with a 0x0A packet. -/
  | preciseStop (core : Nat)
  /-- MCFGM_WRITE (R436): A window write to MCFGM acts as mcfg.mode or is refused. -/
  | mcfgmWrite (core : Nat) (v : Word)
  /-- DSTAT_WRITE (R436): A write to DSTAT clears ERR. -/
  | dstatWrite (core : Nat) (v : Word)
  /-- CXCANCEL (R272): A write cancels an open crest round, releasing participants with 0xFF. -/
  | cxcancel (unit : Nat) (v : Word)
  /-- LBGO_DISPATCH (R439): Dispatches the launch record held at a breakpoint. -/
  | lbgoDispatch (v : Word)
  /-- LBGO_DROP (R439): Discards the launch record held at a breakpoint. -/
  | lbgoDrop (v : Word)
  /-- DRQ_LOAD (R441): A tool's delegated 8-byte debug-window load is checked and performed. -/
  | drqLoad (n : Nat)
  /-- DRQ_STORE (R441): A tool's delegated 8-byte debug-window store is checked and performed. -/
  | drqStore (n : Nat)
  /-- DRREV (R440): Revokes a debug right by advancing GEN and clearing V. -/
  | drrev (n : Nat)
  /-- REGISTER_WRITE (R275): A write to a register without behaviour of its own through control space or the debug window. -/
  | registerWrite (addr : Word) (v : Word)
  /-- MANAGEMENT_PORT_LOCK (R410): The management port locks to IEEE 1588 time, after which ESNAPT and ESNAPN stop reading 0. -/
  | managementPortLock
  /-- INVALIDATION_COMPLETE (R380): An XTINV invalidation finishes in every router cache, clearing XTSTAT.BUSY and advancing COUNT. -/
  | invalidationComplete (unit : Nat)
  /-- ATTESTATION_REPORT (R413): The package produces an SM2-signed attestation report over the firmware digests, its identity and a host-supplied nonce. -/
  | attestationReport
  deriving DecidableEq, Repr

/-- The steps of the other agents: the rows of the opcode table that have no encoding. -/
def Instr.isEvent : Instr → Bool
  | .dataReturn _ _ => true
  | .translationWalk _ _ => true
  | .faultPacketSend _ => true
  | .outboxEntryLeave _ => true
  | .messageDelivery _ => true
  | .messageRefusal _ => true
  | .holdArrival _ => true
  | .readyArrival _ => true
  | .taskPush _ => true
  | .decAtHome _ => true
  | .deferredPush _ => true
  | .decRefusal _ => true
  | .atomicAtHome _ => true
  | .writeBackMerge _ _ => true
  | .activationChoice _ => true
  | .idleWake _ => true
  | .stealProbe _ => true
  | .yieldDeadline _ => true
  | .sleepExpiry _ => true
  | .monitorTrigger _ => true
  | .waittExpiry _ => true
  | .copyChunk _ _ => true
  | .mmaAccumulate _ => true
  | .repIteration _ => true
  | .homeAcquire _ => true
  | .surrender _ => true
  | .acquireGrant _ => true
  | .messageAcquireGrant _ => true
  | .releaseAtHome _ => true
  | .acquireWithdrawal _ => true
  | .acquireRetry _ => true
  | .crestContribution _ => true
  | .crscLanding _ => true
  | .expertHomeOperation _ => true
  | .expertAnswer _ => true
  | .launchPost _ _ => true
  | .launchAdmission _ => true
  | .stampRecheck _ => true
  | .rqgoPush _ _ => true
  | .rqgoDrop _ _ => true
  | .sdgo _ _ => true
  | .shootdownComplete _ => true
  | .pvgo _ _ => true
  | .vacateHandoff _ => true
  | .xtinv _ _ => true
  | .skipfWrite _ => true
  | .governorPeriod => true
  | .esnap _ => true
  | .packageReset => true
  | .firmwareBoot => true
  | .hmsg _ _ => true
  | .hostMessageLeave => true
  | .packageServiceMessageLeave => true
  | .cxlMemRead _ => true
  | .cxlMemWrite _ _ => true
  | .hostSnoop _ => true
  | .bfgo _ => true
  | .biasFlipComplete => true
  | .hostLinkDown => true
  | .hostLinkUp => true
  | .emgo _ _ => true
  | .ergRetry _ => true
  | .ergFlitArrival _ => true
  | .ergAck _ => true
  | .ergPortDown _ => true
  | .ergUnreachable _ => true
  | .ergLinkTraining _ => true
  | .sampleRecord _ => true
  | .traceFlush _ => true
  | .resume _ => true
  | .restart _ => true
  | .kill _ => true
  | .stop _ => true
  | .cancel _ => true
  | .preciseStop _ => true
  | .mcfgmWrite _ _ => true
  | .dstatWrite _ _ => true
  | .cxcancel _ _ => true
  | .lbgoDispatch _ => true
  | .lbgoDrop _ => true
  | .drqLoad _ => true
  | .drqStore _ => true
  | .drrev _ => true
  | .registerWrite _ _ => true
  | .managementPortLock => true
  | .invalidationComplete _ => true
  | .attestationReport => true
  | .add _ => false
  | .sub _ => false
  | .and _ => false
  | .or _ => false
  | .xor _ => false
  | .sll _ => false
  | .srl _ => false
  | .sra _ => false
  | .rol _ => false
  | .slt _ => false
  | .sltu _ => false
  | .min _ => false
  | .max _ => false
  | .minu _ => false
  | .maxu _ => false
  | .cmov _ => false
  | .mul _ => false
  | .mulh _ => false
  | .mulhu _ => false
  | .div _ => false
  | .divu _ => false
  | .rem _ => false
  | .remu _ => false
  | .clz _ => false
  | .ctz _ => false
  | .popc _ => false
  | .omk _ => false
  | .oid _ => false
  | .ooff _ => false
  | .lspc _ => false
  | .addi _ => false
  | .andi _ => false
  | .ori _ => false
  | .xori _ => false
  | .slti _ => false
  | .sltiu _ => false
  | .slli _ => false
  | .srli _ => false
  | .srai _ => false
  | .roli _ => false
  | .lui _ => false
  | .auipc _ => false
  | .beq _ => false
  | .bne _ => false
  | .blt _ => false
  | .bge _ => false
  | .bltu _ => false
  | .bgeu _ => false
  | .jal _ => false
  | .jalr _ => false
  | .ld _ => false
  | .prefetch _ => false
  | .st _ => false
  | .stUpd _ => false
  | .amoAdd _ => false
  | .amoAnd _ => false
  | .amoOr _ => false
  | .amoXor _ => false
  | .amoMin _ => false
  | .amoMax _ => false
  | .amoMinu _ => false
  | .amoMaxu _ => false
  | .amoSwap _ => false
  | .amoCas _ => false
  | .amoAddP _ => false
  | .amoAndP _ => false
  | .amoOrP _ => false
  | .amoXorP _ => false
  | .amoMinP _ => false
  | .amoMaxP _ => false
  | .amoMinuP _ => false
  | .amoMaxuP _ => false
  | .amoSwapP _ => false
  | .acqX _ => false
  | .acqS _ => false
  | .tryacqX _ => false
  | .rel _ => false
  | .bind _ => false
  | .unbind _ => false
  | .fenceG _ => false
  | .fenceL _ => false
  | .commit _ => false
  | .mon _ => false
  | .mwait _ => false
  | .waitt _ => false
  | .fork _ => false
  | .spawn _ => false
  | .done _ => false
  | .yield _ => false
  | .dec _ => false
  | .send _ => false
  | .sendA _ => false
  | .hold _ => false
  | .ready _ => false
  | .chbind _ => false
  | .gang _ => false
  | .disband _ => false
  | .crest _ => false
  | .bar _ => false
  | .csrr _ => false
  | .csrw _ => false
  | .csrs _ => false
  | .csrc _ => false
  | .trap _ => false
  | .brk _ => false
  | .halt _ => false
  | .sleep _ => false
  | .tmark _ => false
  | .fadd _ => false
  | .fsub _ => false
  | .fmul _ => false
  | .ffma _ => false
  | .ffms _ => false
  | .fnma _ => false
  | .fdiv _ => false
  | .fsqrt _ => false
  | .fmin _ => false
  | .fmax _ => false
  | .fabs _ => false
  | .fneg _ => false
  | .fcpys _ => false
  | .frnd _ => false
  | .iadd _ => false
  | .isub _ => false
  | .imul _ => false
  | .imulh _ => false
  | .imulhu _ => false
  | .iand _ => false
  | .ior _ => false
  | .ixor _ => false
  | .ishl _ => false
  | .ishr _ => false
  | .isar _ => false
  | .imin _ => false
  | .imax _ => false
  | .iabs _ => false
  | .iadds _ => false
  | .isubs _ => false
  | .ipopc _ => false
  | .iclz _ => false
  | .iminu _ => false
  | .imaxu _ => false
  | .fceq _ => false
  | .fclt _ => false
  | .fcle _ => false
  | .fcun _ => false
  | .fcne _ => false
  | .iceq _ => false
  | .iclt _ => false
  | .icltu _ => false
  | .icne _ => false
  | .fclass _ => false
  | .mand _ => false
  | .mor _ => false
  | .mxor _ => false
  | .mandn _ => false
  | .mnot _ => false
  | .cvt _ => false
  | .cvts _ => false
  | .frcp _ => false
  | .frsq _ => false
  | .fex2 _ => false
  | .flg2 _ => false
  | .fsin _ => false
  | .fcos _ => false
  | .ftanh _ => false
  | .rsum _ => false
  | .rmax _ => false
  | .rmin _ => false
  | .ramax _ => false
  | .argmax _ => false
  | .scan _ => false
  | .voteAny _ => false
  | .voteAll _ => false
  | .voteNone _ => false
  | .popm _ => false
  | .bcast _ => false
  | .xtr _ => false
  | .ins _ => false
  | .perm _ => false
  | .slide _ => false
  | .iota _ => false
  | .vld _ => false
  | .vlds _ => false
  | .vst _ => false
  | .vsts _ => false
  | .vgath _ => false
  | .vscat _ => false
  | .vldt _ => false
  | .vldl _ => false
  | .vstl _ => false
  | .vtag _ => false
  | .vstag _ => false
  | .qnt _ => false
  | .dqnt _ => false
  | .unpk _ => false
  | .unpkT _ => false
  | .pack _ => false
  | .ctab _ => false
  | .ctenc _ => false
  | .rng _ => false
  | .ctld _ => false
  | .mma _ => false
  | .mz _ => false
  | .mld _ => false
  | .mst _ => false
  | .mrd _ => false
  | .mwr _ => false
  | .mcfgMode _ => false
  | .mcfgScale _ => false
  | .cpy _ => false
  | .cpya _ => false
  | .cpyg _ => false
  | .qfence _ => false
  | .cstat _ => false
  | .repb _ => false
  | .repx _ => false
  | .repw _ => false
  | .tseq _ => false
  | .tseqFree _ => false
  | .wset _ => false
  | .tcommit _ => false
  | .tdraft _ => false
  | .tconf _ => false
  | .tread _ => false
  | .wclr _ => false
  | .exroute _ => false
  | .exspawn _ => false
  | .exact _ => false
  | .exretire _ => false
  | .exjoin _ => false
  | .exjoinF _ => false
  | .exstat _ => false
  | .expub _ => false
  | .opta _ => false
  | .optw _ => false
  | .skipset _ => false
  | .skipclr _ => false
  | .pfx _ => false
  | .hint _ => false
  | .vmov16 _ => false
  | .fadd16 _ => false
  | .fsub16 _ => false
  | .fmul16 _ => false
  | .fmax16 _ => false
  | .fmin16 _ => false
  | .fabs16 _ => false
  | .fneg16 _ => false
  | .iadd16 _ => false
  | .isub16 _ => false
  | .iand16 _ => false
  | .ior16 _ => false
  | .ixor16 _ => false
  | .ishl16 _ => false
  | .ishr16 _ => false
  | .imul16 _ => false

end Sys2Proof
end

