-- ==== Sys2Proof/WellFormed.lean ====
section
/-!
DEFINITION. Which instructions are legal: the static rules of R85, R87, R93 to R100 and R103, each with its own name.
`Instr.illegal` answers the first rule an instruction breaks; an instruction is well formed when it breaks none.
What a prefix may carry and what may follow it (R33, R86, R87, R99) stands beside it.
-/

namespace Sys2Proof

/-- Why a bit pattern is not an instruction (R103), or a term is not the instruction of any bit pattern. -/
inductive Illegal where
  /-- The bytes end before the instruction does. -/
  | truncated
  /-- The halfword 0x0000 (R89). -/
  | zeroHalfword
  /-- A major opcode that R90 leaves unassigned. -/
  | major
  /-- A function code not listed for its group (R91 to R100). -/
  | function
  /-- A branch condition 6 or 7 (R92). -/
  | condition
  /-- A size code not listed (R93). -/
  | size
  /-- A hint code not listed (R93). -/
  | hint
  /-- A type code outside the accepted set (R96). -/
  | type
  /-- A conversion code 19 to 31, equal codes, or .crest with an integer source (R97, R171). -/
  | conversion
  /-- A block format selector that the instruction does not accept (R183). -/
  | selector
  /-- A mask, flag-set or tile field outside its range, or m0 as a destination (R98, R194). -/
  | fileNumber
  /-- An odd register for an operand of pair type (R99). -/
  | oddPair
  /-- EXJOIN.F with b = s0 (R383). -/
  | finalJoinWithoutPartial
  /-- A posted AMO with a destination, or posted CAS (R94). -/
  | postedAtomic
  /-- The term stands for words that another row of the opcode table owns (LD with d = s0, ST with hint 3, TSEQ with va = s0). -/
  | otherRow
  /-- A step of another agent has no encoding. -/
  | event
  deriving DecidableEq, Repr

/-- The first rule of a list that is broken. -/
def firstBroken : List (Bool × Illegal) → Option Illegal
  | [] => none
  | (ok, e) :: rest => if ok then firstBroken rest else some e

/-- Types 1 (F64) and 7 (I64) are the pair types (R99). -/
def isPair (ty : BitVec 3) : Bool := ty == 1 || ty == 7

/-- A vector register field of an operand of type `ty` obeys R99. -/
def pairOk (ty : BitVec 3) (r : BitVec 5) : Bool := !isPair ty || r.getLsbD 0 == false

/-- R99 for vb: a broadcast scalar (bs = 1) is exempt. -/
def pairOkB (o : VArgs) : Bool := o.bs == 1 || pairOk o.ty o.vb

/-- A field that names a mask or a tile has its bits 4:3 zero (R98, R194). -/
def isMaskField (r : BitVec 5) : Bool := r.toNat < 8

/-- A mask destination is m1 to m7 (R98). -/
def isMaskDest (r : BitVec 5) : Bool := isMaskField r && r != 0

/-- A field that names a mask or a flag set holds 0 to 12 (R98). -/
def isMaskOrFlags (r : BitVec 5) : Bool := r.toNat < 13

/-- The floating types 0 to 3. -/
def isFloatType (ty : BitVec 3) : Bool := ty.toNat < 4

namespace Legal

/-- VFP with two sources (R96). -/
def vfp2 (o : VArgs) : Option Illegal :=
  firstBroken [(isFloatType o.ty, .type), (pairOk o.ty o.vd, .oddPair), (pairOk o.ty o.va, .oddPair), (pairOkB o, .oddPair)]

/-- VFP with one source, and FCLASS (R96). -/
def vfp1 (o : VArgs) : Option Illegal :=
  firstBroken [(isFloatType o.ty, .type), (pairOk o.ty o.vd, .oddPair), (pairOk o.ty o.va, .oddPair)]

/-- VINT with two sources (R96). -/
def vint2 (o : VArgs) : Option Illegal :=
  firstBroken [(!isFloatType o.ty, .type), (pairOk o.ty o.vd, .oddPair), (pairOk o.ty o.va, .oddPair), (pairOkB o, .oddPair)]

/-- VINT with one source (R96). -/
def vint1 (o : VArgs) : Option Illegal :=
  firstBroken [(!isFloatType o.ty, .type), (pairOk o.ty o.vd, .oddPair), (pairOk o.ty o.va, .oddPair)]

/-- A floating comparison (R96, R98). -/
def fcmp (o : VArgs) : Option Illegal :=
  firstBroken [(o.ty == 0 || o.ty == 1, .type), (isMaskDest o.vd, .fileNumber), (pairOk o.ty o.va, .oddPair), (pairOkB o, .oddPair)]

/-- An integer comparison (R96, R98). -/
def icmp (o : VArgs) : Option Illegal :=
  firstBroken [(o.ty == 4 || o.ty == 5 || o.ty == 7, .type), (isMaskDest o.vd, .fileNumber), (pairOk o.ty o.va, .oddPair),
    (pairOkB o, .oddPair)]

/-- A mask operation with two sources (R98). -/
def mask2 (o : VArgs) : Option Illegal :=
  firstBroken [(isMaskDest o.vd, .fileNumber), (isMaskOrFlags o.va, .fileNumber), (isMaskOrFlags o.vb, .fileNumber)]

/-- MNOT (R98). -/
def mask1 (o : VArgs) : Option Illegal :=
  firstBroken [(isMaskDest o.vd, .fileNumber), (isMaskOrFlags o.va, .fileNumber)]

/-- The five-bit source code of a conversion: fn5<4:3> followed by the type field (R97). -/
def cvtSource (o : CvArgs) : BitVec 5 := o.h ++ o.ty

/-- The source codes that are floating formats (R171). -/
def isFloatCode (c : BitVec 5) : Bool := c.toNat < 4 || (8 ≤ c.toNat && c.toNat < 15)

/-- CVT and CVTS (R97, R99, R171); `vector` says whether va is a vector. -/
def vcvt (vector : Bool) (o : CvArgs) : Option Illegal :=
  firstBroken [((cvtSource o).toNat < 19, .conversion), (o.vb.toNat < 19, .conversion), (cvtSource o != o.vb, .conversion),
    (o.crest == 0 || isFloatCode (cvtSource o), .conversion),
    (!(o.vb == 1 || o.vb == 7) || o.vd.getLsbD 0 == false, .oddPair),
    (!(vector && (cvtSource o == 1 || cvtSource o == 7)) || o.va.getLsbD 0 == false, .oddPair)]

/-- VSFU (R96). -/
def vsfu (o : VArgs) : Option Illegal := firstBroken [(o.ty == 0 || o.ty == 2 || o.ty == 3, .type)]

/-- RSUM, RMAX and RMIN (R96). -/
def reduce (o : VArgs) : Option Illegal := firstBroken [(pairOk o.ty o.va, .oddPair)]

/-- RAMAX (R96). -/
def ramax (o : VArgs) : Option Illegal := firstBroken [(isFloatType o.ty, .type), (pairOk o.ty o.va, .oddPair)]

/-- ARGMAX (R96). -/
def argmax (o : VArgs) : Option Illegal :=
  firstBroken [(o.ty != 2 && o.ty != 3 && o.ty != 6, .type), (pairOk o.ty o.va, .oddPair)]

/-- SCAN, SLIDE: vector destination and vector source of the type. -/
def vecDA (o : VArgs) : Option Illegal := firstBroken [(pairOk o.ty o.vd, .oddPair), (pairOk o.ty o.va, .oddPair)]

/-- VOTE (R98). -/
def vote (o : VnArgs) : Option Illegal := firstBroken [(isMaskOrFlags o.va, .fileNumber)]

/-- POPM (R98). -/
def popm (o : VArgs) : Option Illegal := firstBroken [(isMaskOrFlags o.va, .fileNumber)]

/-- An instruction whose only vector operand of the type is vd: BCAST, INS, IOTA, VLD, VST, VLDS, VSTS, VLDT, VLDL, VSTL. -/
def vecD (o : VArgs) : Option Illegal := firstBroken [(pairOk o.ty o.vd, .oddPair)]

/-- XTR: only va is a vector of the type. -/
def vecA (o : VArgs) : Option Illegal := firstBroken [(pairOk o.ty o.va, .oddPair)]

/-- PERM. -/
def perm (o : VArgs) : Option Illegal :=
  firstBroken [(pairOk o.ty o.vd, .oddPair), (pairOk o.ty o.va, .oddPair), (pairOkB o, .oddPair)]

/-- VGATH and VSCAT: vo names an even pair for pair types (R178). -/
def vgath (o : VArgs) : Option Illegal := firstBroken [(pairOk o.ty o.vd, .oddPair), (pairOkB o, .oddPair)]

/-- QNT (R183, R185). -/
def qnt (o : VArgs) : Option Illegal :=
  firstBroken [(o.ty.toNat < 3, .type),
    ((13 ≤ o.vd.toNat && o.vd.toNat ≤ 17) || o.vd.toNat == 21 || o.vd.toNat == 22, .selector)]

/-- PACK (R183, R186). -/
def pack (o : VArgs) : Option Illegal := firstBroken [(o.ty.toNat < 3, .type), (o.vd.toNat < 25, .selector)]

/-- CTLD, CTAB, CTENC, where types 2 to 7 are illegal (R189, R190). -/
def table (o : VArgs) : Option Illegal := firstBroken [(o.ty.toNat < 2, .type)]

/-- RNG (R191). -/
def rng (o : VArgs) : Option Illegal := firstBroken [(o.ty == 0 || o.ty == 5, .type)]

/-- MMA, MZ, MLD, MST: vd is a tile (R194). -/
def tileD (o : VArgs) : Option Illegal := firstBroken [(isMaskField o.vd, .fileNumber)]

/-- MRD (R194). -/
def mrd (o : VArgs) : Option Illegal :=
  firstBroken [(o.ty.toNat < 2, .type), (isMaskField o.va, .fileNumber), (pairOk o.ty o.vd, .oddPair)]

/-- MWR (R194). -/
def mwr (o : VArgs) : Option Illegal :=
  firstBroken [(o.ty.toNat < 2, .type), (isMaskField o.vd, .fileNumber), (pairOk o.ty o.va, .oddPair)]

/-- LD with a destination (R93). -/
def ld (o : MArgs) : Option Illegal := firstBroken [(o.d != 0, .otherRow), (o.size != 7, .size), (o.hint != 3, .hint)]

/-- The illegal-code check of LD whose d is s0: an illegal size or hint is still illegal (R93). It makes no word a fault: a prefetch that
fails it does nothing (R144). DEDUCED (log 15). -/
def prefetch (o : MpArgs) : Option Illegal := firstBroken [(o.size != 7, .size), (o.hint != 3, .hint)]

/-- ST with hint 0 to 2 (R93). -/
def st (o : MArgs) : Option Illegal := firstBroken [(o.hint != 3, .otherRow), (o.size.toNat < 4, .size)]

/-- ST with hint .upd (R93). -/
def stUpd (o : MuArgs) : Option Illegal := firstBroken [(o.size.toNat < 4, .size)]

/-- TSEQ with a descriptor; va = s0 is TSEQ_FREE (R233). -/
def tseq (o : VArgs) : Option Illegal := firstBroken [(o.va != 0, .otherRow)]

/-- EXJOIN.F needs a partial (R383). -/
def exjoinF (o : RArgs) : Option Illegal := firstBroken [(o.b != 0, .finalJoinWithoutPartial)]

/-- VMOV, whose word 0x0000 is illegal (R89). -/
def vmov16 (o : HArgs) : Option Illegal := firstBroken [(o.tb != 0 || o.vb != 0 || o.vd != 0, .zeroHalfword)]

end Legal

/-- The first static rule that an instruction breaks (R103). -/
def Instr.illegal : Instr → Option Illegal
  | .add _ => none
  | .sub _ => none
  | .and _ => none
  | .or _ => none
  | .xor _ => none
  | .sll _ => none
  | .srl _ => none
  | .sra _ => none
  | .rol _ => none
  | .slt _ => none
  | .sltu _ => none
  | .min _ => none
  | .max _ => none
  | .minu _ => none
  | .maxu _ => none
  | .cmov _ => none
  | .mul _ => none
  | .mulh _ => none
  | .mulhu _ => none
  | .div _ => none
  | .divu _ => none
  | .rem _ => none
  | .remu _ => none
  | .clz _ => none
  | .ctz _ => none
  | .popc _ => none
  | .omk _ => none
  | .oid _ => none
  | .ooff _ => none
  | .lspc _ => none
  | .addi _ => none
  | .andi _ => none
  | .ori _ => none
  | .xori _ => none
  | .slti _ => none
  | .sltiu _ => none
  | .slli _ => none
  | .srli _ => none
  | .srai _ => none
  | .roli _ => none
  | .lui _ => none
  | .auipc _ => none
  | .beq _ => none
  | .bne _ => none
  | .blt _ => none
  | .bge _ => none
  | .bltu _ => none
  | .bgeu _ => none
  | .jal _ => none
  | .jalr _ => none
  | .ld o => Legal.ld o
  | .prefetch _ => none
  | .st o => Legal.st o
  | .stUpd o => Legal.stUpd o
  | .amoAdd _ => none
  | .amoAnd _ => none
  | .amoOr _ => none
  | .amoXor _ => none
  | .amoMin _ => none
  | .amoMax _ => none
  | .amoMinu _ => none
  | .amoMaxu _ => none
  | .amoSwap _ => none
  | .amoCas _ => none
  | .amoAddP _ => none
  | .amoAndP _ => none
  | .amoOrP _ => none
  | .amoXorP _ => none
  | .amoMinP _ => none
  | .amoMaxP _ => none
  | .amoMinuP _ => none
  | .amoMaxuP _ => none
  | .amoSwapP _ => none
  | .acqX _ => none
  | .acqS _ => none
  | .tryacqX _ => none
  | .rel _ => none
  | .bind _ => none
  | .unbind _ => none
  | .fenceG _ => none
  | .fenceL _ => none
  | .commit _ => none
  | .mon _ => none
  | .mwait _ => none
  | .waitt _ => none
  | .fork _ => none
  | .spawn _ => none
  | .done _ => none
  | .yield _ => none
  | .dec _ => none
  | .send _ => none
  | .sendA _ => none
  | .hold _ => none
  | .ready _ => none
  | .chbind _ => none
  | .gang _ => none
  | .disband _ => none
  | .crest _ => none
  | .bar _ => none
  | .csrr _ => none
  | .csrw _ => none
  | .csrs _ => none
  | .csrc _ => none
  | .trap _ => none
  | .brk _ => none
  | .halt _ => none
  | .sleep _ => none
  | .tmark _ => none
  | .fadd o => Legal.vfp2 o
  | .fsub o => Legal.vfp2 o
  | .fmul o => Legal.vfp2 o
  | .ffma o => Legal.vfp2 o
  | .ffms o => Legal.vfp2 o
  | .fnma o => Legal.vfp2 o
  | .fdiv o => Legal.vfp2 o
  | .fsqrt o => Legal.vfp1 o
  | .fmin o => Legal.vfp2 o
  | .fmax o => Legal.vfp2 o
  | .fabs o => Legal.vfp1 o
  | .fneg o => Legal.vfp1 o
  | .fcpys o => Legal.vfp2 o
  | .frnd o => Legal.vfp1 o
  | .iadd o => Legal.vint2 o
  | .isub o => Legal.vint2 o
  | .imul o => Legal.vint2 o
  | .imulh o => Legal.vint2 o
  | .imulhu o => Legal.vint2 o
  | .iand o => Legal.vint2 o
  | .ior o => Legal.vint2 o
  | .ixor o => Legal.vint2 o
  | .ishl o => Legal.vint2 o
  | .ishr o => Legal.vint2 o
  | .isar o => Legal.vint2 o
  | .imin o => Legal.vint2 o
  | .imax o => Legal.vint2 o
  | .iabs o => Legal.vint1 o
  | .iadds o => Legal.vint2 o
  | .isubs o => Legal.vint2 o
  | .ipopc o => Legal.vint1 o
  | .iclz o => Legal.vint1 o
  | .iminu o => Legal.vint2 o
  | .imaxu o => Legal.vint2 o
  | .fceq o => Legal.fcmp o
  | .fclt o => Legal.fcmp o
  | .fcle o => Legal.fcmp o
  | .fcun o => Legal.fcmp o
  | .fcne o => Legal.fcmp o
  | .iceq o => Legal.icmp o
  | .iclt o => Legal.icmp o
  | .icltu o => Legal.icmp o
  | .icne o => Legal.icmp o
  | .fclass o => Legal.vfp1 o
  | .mand o => Legal.mask2 o
  | .mor o => Legal.mask2 o
  | .mxor o => Legal.mask2 o
  | .mandn o => Legal.mask2 o
  | .mnot o => Legal.mask1 o
  | .cvt o => Legal.vcvt true o
  | .cvts o => Legal.vcvt false o
  | .frcp o => Legal.vsfu o
  | .frsq o => Legal.vsfu o
  | .fex2 o => Legal.vsfu o
  | .flg2 o => Legal.vsfu o
  | .fsin o => Legal.vsfu o
  | .fcos o => Legal.vsfu o
  | .ftanh o => Legal.vsfu o
  | .rsum o => Legal.reduce o
  | .rmax o => Legal.reduce o
  | .rmin o => Legal.reduce o
  | .ramax o => Legal.ramax o
  | .argmax o => Legal.argmax o
  | .scan o => Legal.vecDA o
  | .voteAny o => Legal.vote o
  | .voteAll o => Legal.vote o
  | .voteNone o => Legal.vote o
  | .popm o => Legal.popm o
  | .bcast o => Legal.vecD o
  | .xtr o => Legal.vecA o
  | .ins o => Legal.vecD o
  | .perm o => Legal.perm o
  | .slide o => Legal.vecDA o
  | .iota o => Legal.vecD o
  | .vld o => Legal.vecD o
  | .vlds o => Legal.vecD o
  | .vst o => Legal.vecD o
  | .vsts o => Legal.vecD o
  | .vgath o => Legal.vgath o
  | .vscat o => Legal.vgath o
  | .vldt o => Legal.vecD o
  | .vldl o => Legal.vecD o
  | .vstl o => Legal.vecD o
  | .vtag _ => none
  | .vstag _ => none
  | .qnt o => Legal.qnt o
  | .dqnt _ => none
  | .unpk _ => none
  | .unpkT _ => none
  | .pack o => Legal.pack o
  | .ctab o => Legal.table o
  | .ctenc o => Legal.table o
  | .rng o => Legal.rng o
  | .ctld o => Legal.table o
  | .mma o => Legal.tileD o
  | .mz o => Legal.tileD o
  | .mld o => Legal.tileD o
  | .mst o => Legal.tileD o
  | .mrd o => Legal.mrd o
  | .mwr o => Legal.mwr o
  | .mcfgMode _ => none
  | .mcfgScale _ => none
  | .cpy _ => none
  | .cpya _ => none
  | .cpyg _ => none
  | .qfence _ => none
  | .cstat _ => none
  | .repb _ => none
  | .repx _ => none
  | .repw _ => none
  | .tseq o => Legal.tseq o
  | .tseqFree _ => none
  | .wset _ => none
  | .tcommit _ => none
  | .tdraft _ => none
  | .tconf _ => none
  | .tread _ => none
  | .wclr _ => none
  | .exroute _ => none
  | .exspawn _ => none
  | .exact _ => none
  | .exretire _ => none
  | .exjoin _ => none
  | .exjoinF o => Legal.exjoinF o
  | .exstat _ => none
  | .expub _ => none
  | .opta _ => none
  | .optw _ => none
  | .skipset _ => none
  | .skipclr _ => none
  | .pfx _ => none
  | .hint _ => none
  | .vmov16 o => Legal.vmov16 o
  | .fadd16 _ => none
  | .fsub16 _ => none
  | .fmul16 _ => none
  | .fmax16 _ => none
  | .fmin16 _ => none
  | .fabs16 _ => none
  | .fneg16 _ => none
  | .iadd16 _ => none
  | .isub16 _ => none
  | .iand16 _ => none
  | .ior16 _ => none
  | .ixor16 _ => none
  | .ishl16 _ => none
  | .ishr16 _ => none
  | .imul16 _ => none
  | .dataReturn _ _ => some .event
  | .translationWalk _ _ => some .event
  | .faultPacketSend _ => some .event
  | .outboxEntryLeave _ => some .event
  | .messageDelivery _ => some .event
  | .messageRefusal _ => some .event
  | .holdArrival _ => some .event
  | .readyArrival _ => some .event
  | .taskPush _ => some .event
  | .decAtHome _ => some .event
  | .deferredPush _ => some .event
  | .decRefusal _ => some .event
  | .atomicAtHome _ => some .event
  | .writeBackMerge _ _ => some .event
  | .activationChoice _ => some .event
  | .idleWake _ => some .event
  | .stealProbe _ => some .event
  | .yieldDeadline _ => some .event
  | .sleepExpiry _ => some .event
  | .monitorTrigger _ => some .event
  | .waittExpiry _ => some .event
  | .copyChunk _ _ => some .event
  | .mmaAccumulate _ => some .event
  | .repIteration _ => some .event
  | .homeAcquire _ => some .event
  | .surrender _ => some .event
  | .acquireGrant _ => some .event
  | .messageAcquireGrant _ => some .event
  | .releaseAtHome _ => some .event
  | .acquireWithdrawal _ => some .event
  | .acquireRetry _ => some .event
  | .crestContribution _ => some .event
  | .crscLanding _ => some .event
  | .expertHomeOperation _ => some .event
  | .expertAnswer _ => some .event
  | .launchPost _ _ => some .event
  | .launchAdmission _ => some .event
  | .stampRecheck _ => some .event
  | .rqgoPush _ _ => some .event
  | .rqgoDrop _ _ => some .event
  | .sdgo _ _ => some .event
  | .shootdownComplete _ => some .event
  | .pvgo _ _ => some .event
  | .vacateHandoff _ => some .event
  | .xtinv _ _ => some .event
  | .skipfWrite _ => some .event
  | .governorPeriod => some .event
  | .esnap _ => some .event
  | .packageReset => some .event
  | .firmwareBoot => some .event
  | .hmsg _ _ => some .event
  | .hostMessageLeave => some .event
  | .packageServiceMessageLeave => some .event
  | .cxlMemRead _ => some .event
  | .cxlMemWrite _ _ => some .event
  | .hostSnoop _ => some .event
  | .bfgo _ => some .event
  | .biasFlipComplete => some .event
  | .hostLinkDown => some .event
  | .hostLinkUp => some .event
  | .emgo _ _ => some .event
  | .ergRetry _ => some .event
  | .ergFlitArrival _ => some .event
  | .ergAck _ => some .event
  | .ergPortDown _ => some .event
  | .ergUnreachable _ => some .event
  | .ergLinkTraining _ => some .event
  | .sampleRecord _ => some .event
  | .traceFlush _ => some .event
  | .resume _ => some .event
  | .restart _ => some .event
  | .kill _ => some .event
  | .stop _ => some .event
  | .cancel _ => some .event
  | .preciseStop _ => some .event
  | .mcfgmWrite _ _ => some .event
  | .dstatWrite _ _ => some .event
  | .cxcancel _ _ => some .event
  | .lbgoDispatch _ => some .event
  | .lbgoDrop _ => some .event
  | .drqLoad _ => some .event
  | .drqStore _ => some .event
  | .drrev _ => some .event
  | .registerWrite _ _ => some .event
  | .managementPortLock => some .event
  | .invalidationComplete _ => some .event
  | .attestationReport => some .event

/-- An instruction that some word of the instruction stream stands for (R103). -/
abbrev WellFormed (i : Instr) : Prop := i.illegal = none

/-- The instructions that may follow a prefix: 32-bit instructions of majors 0x14 to 0x1E, and TCOMMIT (R87). -/
def Instr.prefixable : Instr → Bool
  | .add _ => false
  | .sub _ => false
  | .and _ => false
  | .or _ => false
  | .xor _ => false
  | .sll _ => false
  | .srl _ => false
  | .sra _ => false
  | .rol _ => false
  | .slt _ => false
  | .sltu _ => false
  | .min _ => false
  | .max _ => false
  | .minu _ => false
  | .maxu _ => false
  | .cmov _ => false
  | .mul _ => false
  | .mulh _ => false
  | .mulhu _ => false
  | .div _ => false
  | .divu _ => false
  | .rem _ => false
  | .remu _ => false
  | .clz _ => false
  | .ctz _ => false
  | .popc _ => false
  | .omk _ => false
  | .oid _ => false
  | .ooff _ => false
  | .lspc _ => false
  | .addi _ => false
  | .andi _ => false
  | .ori _ => false
  | .xori _ => false
  | .slti _ => false
  | .sltiu _ => false
  | .slli _ => false
  | .srli _ => false
  | .srai _ => false
  | .roli _ => false
  | .lui _ => false
  | .auipc _ => false
  | .beq _ => false
  | .bne _ => false
  | .blt _ => false
  | .bge _ => false
  | .bltu _ => false
  | .bgeu _ => false
  | .jal _ => false
  | .jalr _ => false
  | .ld _ => false
  | .prefetch _ => false
  | .st _ => false
  | .stUpd _ => false
  | .amoAdd _ => false
  | .amoAnd _ => false
  | .amoOr _ => false
  | .amoXor _ => false
  | .amoMin _ => false
  | .amoMax _ => false
  | .amoMinu _ => false
  | .amoMaxu _ => false
  | .amoSwap _ => false
  | .amoCas _ => false
  | .amoAddP _ => false
  | .amoAndP _ => false
  | .amoOrP _ => false
  | .amoXorP _ => false
  | .amoMinP _ => false
  | .amoMaxP _ => false
  | .amoMinuP _ => false
  | .amoMaxuP _ => false
  | .amoSwapP _ => false
  | .acqX _ => false
  | .acqS _ => false
  | .tryacqX _ => false
  | .rel _ => false
  | .bind _ => false
  | .unbind _ => false
  | .fenceG _ => false
  | .fenceL _ => false
  | .commit _ => false
  | .mon _ => false
  | .mwait _ => false
  | .waitt _ => false
  | .fork _ => false
  | .spawn _ => false
  | .done _ => false
  | .yield _ => false
  | .dec _ => false
  | .send _ => false
  | .sendA _ => false
  | .hold _ => false
  | .ready _ => false
  | .chbind _ => false
  | .gang _ => false
  | .disband _ => false
  | .crest _ => false
  | .bar _ => false
  | .csrr _ => false
  | .csrw _ => false
  | .csrs _ => false
  | .csrc _ => false
  | .trap _ => false
  | .brk _ => false
  | .halt _ => false
  | .sleep _ => false
  | .tmark _ => false
  | .fadd _ => true
  | .fsub _ => true
  | .fmul _ => true
  | .ffma _ => true
  | .ffms _ => true
  | .fnma _ => true
  | .fdiv _ => true
  | .fsqrt _ => true
  | .fmin _ => true
  | .fmax _ => true
  | .fabs _ => true
  | .fneg _ => true
  | .fcpys _ => true
  | .frnd _ => true
  | .iadd _ => true
  | .isub _ => true
  | .imul _ => true
  | .imulh _ => true
  | .imulhu _ => true
  | .iand _ => true
  | .ior _ => true
  | .ixor _ => true
  | .ishl _ => true
  | .ishr _ => true
  | .isar _ => true
  | .imin _ => true
  | .imax _ => true
  | .iabs _ => true
  | .iadds _ => true
  | .isubs _ => true
  | .ipopc _ => true
  | .iclz _ => true
  | .iminu _ => true
  | .imaxu _ => true
  | .fceq _ => true
  | .fclt _ => true
  | .fcle _ => true
  | .fcun _ => true
  | .fcne _ => true
  | .iceq _ => true
  | .iclt _ => true
  | .icltu _ => true
  | .icne _ => true
  | .fclass _ => true
  | .mand _ => true
  | .mor _ => true
  | .mxor _ => true
  | .mandn _ => true
  | .mnot _ => true
  | .cvt _ => true
  | .cvts _ => true
  | .frcp _ => true
  | .frsq _ => true
  | .fex2 _ => true
  | .flg2 _ => true
  | .fsin _ => true
  | .fcos _ => true
  | .ftanh _ => true
  | .rsum _ => true
  | .rmax _ => true
  | .rmin _ => true
  | .ramax _ => true
  | .argmax _ => true
  | .scan _ => true
  | .voteAny _ => true
  | .voteAll _ => true
  | .voteNone _ => true
  | .popm _ => true
  | .bcast _ => true
  | .xtr _ => true
  | .ins _ => true
  | .perm _ => true
  | .slide _ => true
  | .iota _ => true
  | .vld _ => true
  | .vlds _ => true
  | .vst _ => true
  | .vsts _ => true
  | .vgath _ => true
  | .vscat _ => true
  | .vldt _ => true
  | .vldl _ => true
  | .vstl _ => true
  | .vtag _ => true
  | .vstag _ => true
  | .qnt _ => true
  | .dqnt _ => true
  | .unpk _ => true
  | .unpkT _ => true
  | .pack _ => true
  | .ctab _ => true
  | .ctenc _ => true
  | .rng _ => true
  | .ctld _ => true
  | .mma _ => false
  | .mz _ => false
  | .mld _ => false
  | .mst _ => false
  | .mrd _ => false
  | .mwr _ => false
  | .mcfgMode _ => false
  | .mcfgScale _ => false
  | .cpy _ => false
  | .cpya _ => false
  | .cpyg _ => false
  | .qfence _ => false
  | .cstat _ => false
  | .repb _ => false
  | .repx _ => false
  | .repw _ => false
  | .tseq _ => false
  | .tseqFree _ => false
  | .wset _ => false
  | .tcommit _ => true
  | .tdraft _ => false
  | .tconf _ => false
  | .tread _ => false
  | .wclr _ => false
  | .exroute _ => false
  | .exspawn _ => false
  | .exact _ => false
  | .exretire _ => false
  | .exjoin _ => false
  | .exjoinF _ => false
  | .exstat _ => false
  | .expub _ => false
  | .opta _ => false
  | .optw _ => false
  | .skipset _ => false
  | .skipclr _ => false
  | .pfx _ => false
  | .hint _ => false
  | .vmov16 _ => false
  | .fadd16 _ => false
  | .fsub16 _ => false
  | .fmul16 _ => false
  | .fmax16 _ => false
  | .fmin16 _ => false
  | .fabs16 _ => false
  | .fneg16 _ => false
  | .iadd16 _ => false
  | .isub16 _ => false
  | .iand16 _ => false
  | .ior16 _ => false
  | .ixor16 _ => false
  | .ishl16 _ => false
  | .ishr16 _ => false
  | .imul16 _ => false
  | .dataReturn _ _ => false
  | .translationWalk _ _ => false
  | .faultPacketSend _ => false
  | .outboxEntryLeave _ => false
  | .messageDelivery _ => false
  | .messageRefusal _ => false
  | .holdArrival _ => false
  | .readyArrival _ => false
  | .taskPush _ => false
  | .decAtHome _ => false
  | .deferredPush _ => false
  | .decRefusal _ => false
  | .atomicAtHome _ => false
  | .writeBackMerge _ _ => false
  | .activationChoice _ => false
  | .idleWake _ => false
  | .stealProbe _ => false
  | .yieldDeadline _ => false
  | .sleepExpiry _ => false
  | .monitorTrigger _ => false
  | .waittExpiry _ => false
  | .copyChunk _ _ => false
  | .mmaAccumulate _ => false
  | .repIteration _ => false
  | .homeAcquire _ => false
  | .surrender _ => false
  | .acquireGrant _ => false
  | .messageAcquireGrant _ => false
  | .releaseAtHome _ => false
  | .acquireWithdrawal _ => false
  | .acquireRetry _ => false
  | .crestContribution _ => false
  | .crscLanding _ => false
  | .expertHomeOperation _ => false
  | .expertAnswer _ => false
  | .launchPost _ _ => false
  | .launchAdmission _ => false
  | .stampRecheck _ => false
  | .rqgoPush _ _ => false
  | .rqgoDrop _ _ => false
  | .sdgo _ _ => false
  | .shootdownComplete _ => false
  | .pvgo _ _ => false
  | .vacateHandoff _ => false
  | .xtinv _ _ => false
  | .skipfWrite _ => false
  | .governorPeriod => false
  | .esnap _ => false
  | .packageReset => false
  | .firmwareBoot => false
  | .hmsg _ _ => false
  | .hostMessageLeave => false
  | .packageServiceMessageLeave => false
  | .cxlMemRead _ => false
  | .cxlMemWrite _ _ => false
  | .hostSnoop _ => false
  | .bfgo _ => false
  | .biasFlipComplete => false
  | .hostLinkDown => false
  | .hostLinkUp => false
  | .emgo _ _ => false
  | .ergRetry _ => false
  | .ergFlitArrival _ => false
  | .ergAck _ => false
  | .ergPortDown _ => false
  | .ergUnreachable _ => false
  | .ergLinkTraining _ => false
  | .sampleRecord _ => false
  | .traceFlush _ => false
  | .resume _ => false
  | .restart _ => false
  | .kill _ => false
  | .stop _ => false
  | .cancel _ => false
  | .preciseStop _ => false
  | .mcfgmWrite _ _ => false
  | .dstatWrite _ _ => false
  | .cxcancel _ _ => false
  | .lbgoDispatch _ => false
  | .lbgoDrop _ => false
  | .drqLoad _ => false
  | .drqStore _ => false
  | .drrev _ => false
  | .registerWrite _ _ => false
  | .managementPortLock => false
  | .invalidationComplete _ => false
  | .attestationReport => false

/-- The instructions that SR (mode 5) makes illegal: those that compute floating results and are no conversions (R33). -/
def Instr.refusesSR : Instr → Bool
  | .fadd _ => true
  | .fsub _ => true
  | .fmul _ => true
  | .ffma _ => true
  | .ffms _ => true
  | .fnma _ => true
  | .fdiv _ => true
  | .fsqrt _ => true
  | .fmin _ => true
  | .fmax _ => true
  | .fabs _ => true
  | .fneg _ => true
  | .fcpys _ => true
  | .frnd _ => true
  | .frcp _ => true
  | .frsq _ => true
  | .fex2 _ => true
  | .flg2 _ => true
  | .fsin _ => true
  | .fcos _ => true
  | .ftanh _ => true
  | .rsum o => isFloatType o.ty
  | .scan o => isFloatType o.ty
  | .iota o => isFloatType o.ty
  | _ => false

/-- The instructions that read the prefix's c operand as an element of their type (R86, R96). -/
def Instr.oddC (c : BitVec 5) : Instr → Bool
  | .ffma o | .ffms o | .fnma o => isPair o.ty && c.getLsbD 0
  | _ => false

/-- Whether a prefix makes the instruction after it illegal: rounding 7 always, rounding 5 where R33 says so, an odd c for an
operand of pair type (R86, R99). The prefix rule itself (R87) is `Instr.prefixable`. -/
def Instr.illegalUnder (p : PArgs) (i : Instr) : Bool :=
  p.rm == 7 || (p.rm == 5 && i.refusesSR) || (p.usec == 1 && i.oddC p.c)

/-- The instructions that REPB captures: the 16-bit forms and the 32-bit instructions of majors 0x14 to 0x1F (R218). -/
def Instr.capturable : Instr → Bool
  | .add _ => false
  | .sub _ => false
  | .and _ => false
  | .or _ => false
  | .xor _ => false
  | .sll _ => false
  | .srl _ => false
  | .sra _ => false
  | .rol _ => false
  | .slt _ => false
  | .sltu _ => false
  | .min _ => false
  | .max _ => false
  | .minu _ => false
  | .maxu _ => false
  | .cmov _ => false
  | .mul _ => false
  | .mulh _ => false
  | .mulhu _ => false
  | .div _ => false
  | .divu _ => false
  | .rem _ => false
  | .remu _ => false
  | .clz _ => false
  | .ctz _ => false
  | .popc _ => false
  | .omk _ => false
  | .oid _ => false
  | .ooff _ => false
  | .lspc _ => false
  | .addi _ => false
  | .andi _ => false
  | .ori _ => false
  | .xori _ => false
  | .slti _ => false
  | .sltiu _ => false
  | .slli _ => false
  | .srli _ => false
  | .srai _ => false
  | .roli _ => false
  | .lui _ => false
  | .auipc _ => false
  | .beq _ => false
  | .bne _ => false
  | .blt _ => false
  | .bge _ => false
  | .bltu _ => false
  | .bgeu _ => false
  | .jal _ => false
  | .jalr _ => false
  | .ld _ => false
  | .prefetch _ => false
  | .st _ => false
  | .stUpd _ => false
  | .amoAdd _ => false
  | .amoAnd _ => false
  | .amoOr _ => false
  | .amoXor _ => false
  | .amoMin _ => false
  | .amoMax _ => false
  | .amoMinu _ => false
  | .amoMaxu _ => false
  | .amoSwap _ => false
  | .amoCas _ => false
  | .amoAddP _ => false
  | .amoAndP _ => false
  | .amoOrP _ => false
  | .amoXorP _ => false
  | .amoMinP _ => false
  | .amoMaxP _ => false
  | .amoMinuP _ => false
  | .amoMaxuP _ => false
  | .amoSwapP _ => false
  | .acqX _ => false
  | .acqS _ => false
  | .tryacqX _ => false
  | .rel _ => false
  | .bind _ => false
  | .unbind _ => false
  | .fenceG _ => false
  | .fenceL _ => false
  | .commit _ => false
  | .mon _ => false
  | .mwait _ => false
  | .waitt _ => false
  | .fork _ => false
  | .spawn _ => false
  | .done _ => false
  | .yield _ => false
  | .dec _ => false
  | .send _ => false
  | .sendA _ => false
  | .hold _ => false
  | .ready _ => false
  | .chbind _ => false
  | .gang _ => false
  | .disband _ => false
  | .crest _ => false
  | .bar _ => false
  | .csrr _ => false
  | .csrw _ => false
  | .csrs _ => false
  | .csrc _ => false
  | .trap _ => false
  | .brk _ => false
  | .halt _ => false
  | .sleep _ => false
  | .tmark _ => false
  | .fadd _ => true
  | .fsub _ => true
  | .fmul _ => true
  | .ffma _ => true
  | .ffms _ => true
  | .fnma _ => true
  | .fdiv _ => true
  | .fsqrt _ => true
  | .fmin _ => true
  | .fmax _ => true
  | .fabs _ => true
  | .fneg _ => true
  | .fcpys _ => true
  | .frnd _ => true
  | .iadd _ => true
  | .isub _ => true
  | .imul _ => true
  | .imulh _ => true
  | .imulhu _ => true
  | .iand _ => true
  | .ior _ => true
  | .ixor _ => true
  | .ishl _ => true
  | .ishr _ => true
  | .isar _ => true
  | .imin _ => true
  | .imax _ => true
  | .iabs _ => true
  | .iadds _ => true
  | .isubs _ => true
  | .ipopc _ => true
  | .iclz _ => true
  | .iminu _ => true
  | .imaxu _ => true
  | .fceq _ => true
  | .fclt _ => true
  | .fcle _ => true
  | .fcun _ => true
  | .fcne _ => true
  | .iceq _ => true
  | .iclt _ => true
  | .icltu _ => true
  | .icne _ => true
  | .fclass _ => true
  | .mand _ => true
  | .mor _ => true
  | .mxor _ => true
  | .mandn _ => true
  | .mnot _ => true
  | .cvt _ => true
  | .cvts _ => true
  | .frcp _ => true
  | .frsq _ => true
  | .fex2 _ => true
  | .flg2 _ => true
  | .fsin _ => true
  | .fcos _ => true
  | .ftanh _ => true
  | .rsum _ => true
  | .rmax _ => true
  | .rmin _ => true
  | .ramax _ => true
  | .argmax _ => true
  | .scan _ => true
  | .voteAny _ => true
  | .voteAll _ => true
  | .voteNone _ => true
  | .popm _ => true
  | .bcast _ => true
  | .xtr _ => true
  | .ins _ => true
  | .perm _ => true
  | .slide _ => true
  | .iota _ => true
  | .vld _ => true
  | .vlds _ => true
  | .vst _ => true
  | .vsts _ => true
  | .vgath _ => true
  | .vscat _ => true
  | .vldt _ => true
  | .vldl _ => true
  | .vstl _ => true
  | .vtag _ => true
  | .vstag _ => true
  | .qnt _ => true
  | .dqnt _ => true
  | .unpk _ => true
  | .unpkT _ => true
  | .pack _ => true
  | .ctab _ => true
  | .ctenc _ => true
  | .rng _ => true
  | .ctld _ => true
  | .mma _ => true
  | .mz _ => true
  | .mld _ => true
  | .mst _ => true
  | .mrd _ => true
  | .mwr _ => true
  | .mcfgMode _ => true
  | .mcfgScale _ => true
  | .cpy _ => false
  | .cpya _ => false
  | .cpyg _ => false
  | .qfence _ => false
  | .cstat _ => false
  | .repb _ => false
  | .repx _ => false
  | .repw _ => false
  | .tseq _ => false
  | .tseqFree _ => false
  | .wset _ => false
  | .tcommit _ => false
  | .tdraft _ => false
  | .tconf _ => false
  | .tread _ => false
  | .wclr _ => false
  | .exroute _ => false
  | .exspawn _ => false
  | .exact _ => false
  | .exretire _ => false
  | .exjoin _ => false
  | .exjoinF _ => false
  | .exstat _ => false
  | .expub _ => false
  | .opta _ => false
  | .optw _ => false
  | .skipset _ => false
  | .skipclr _ => false
  | .pfx _ => false
  | .hint _ => false
  | .vmov16 _ => true
  | .fadd16 _ => true
  | .fsub16 _ => true
  | .fmul16 _ => true
  | .fmax16 _ => true
  | .fmin16 _ => true
  | .fabs16 _ => true
  | .fneg16 _ => true
  | .iadd16 _ => true
  | .isub16 _ => true
  | .iand16 _ => true
  | .ior16 _ => true
  | .ixor16 _ => true
  | .ishl16 _ => true
  | .ishr16 _ => true
  | .imul16 _ => true
  | .dataReturn _ _ => false
  | .translationWalk _ _ => false
  | .faultPacketSend _ => false
  | .outboxEntryLeave _ => false
  | .messageDelivery _ => false
  | .messageRefusal _ => false
  | .holdArrival _ => false
  | .readyArrival _ => false
  | .taskPush _ => false
  | .decAtHome _ => false
  | .deferredPush _ => false
  | .decRefusal _ => false
  | .atomicAtHome _ => false
  | .writeBackMerge _ _ => false
  | .activationChoice _ => false
  | .idleWake _ => false
  | .stealProbe _ => false
  | .yieldDeadline _ => false
  | .sleepExpiry _ => false
  | .monitorTrigger _ => false
  | .waittExpiry _ => false
  | .copyChunk _ _ => false
  | .mmaAccumulate _ => false
  | .repIteration _ => false
  | .homeAcquire _ => false
  | .surrender _ => false
  | .acquireGrant _ => false
  | .messageAcquireGrant _ => false
  | .releaseAtHome _ => false
  | .acquireWithdrawal _ => false
  | .acquireRetry _ => false
  | .crestContribution _ => false
  | .crscLanding _ => false
  | .expertHomeOperation _ => false
  | .expertAnswer _ => false
  | .launchPost _ _ => false
  | .launchAdmission _ => false
  | .stampRecheck _ => false
  | .rqgoPush _ _ => false
  | .rqgoDrop _ _ => false
  | .sdgo _ _ => false
  | .shootdownComplete _ => false
  | .pvgo _ _ => false
  | .vacateHandoff _ => false
  | .xtinv _ _ => false
  | .skipfWrite _ => false
  | .governorPeriod => false
  | .esnap _ => false
  | .packageReset => false
  | .firmwareBoot => false
  | .hmsg _ _ => false
  | .hostMessageLeave => false
  | .packageServiceMessageLeave => false
  | .cxlMemRead _ => false
  | .cxlMemWrite _ _ => false
  | .hostSnoop _ => false
  | .bfgo _ => false
  | .biasFlipComplete => false
  | .hostLinkDown => false
  | .hostLinkUp => false
  | .emgo _ _ => false
  | .ergRetry _ => false
  | .ergFlitArrival _ => false
  | .ergAck _ => false
  | .ergPortDown _ => false
  | .ergUnreachable _ => false
  | .ergLinkTraining _ => false
  | .sampleRecord _ => false
  | .traceFlush _ => false
  | .resume _ => false
  | .restart _ => false
  | .kill _ => false
  | .stop _ => false
  | .cancel _ => false
  | .preciseStop _ => false
  | .mcfgmWrite _ _ => false
  | .dstatWrite _ _ => false
  | .cxcancel _ _ => false
  | .lbgoDispatch _ => false
  | .lbgoDrop _ => false
  | .drqLoad _ => false
  | .drqStore _ => false
  | .drrev _ => false
  | .registerWrite _ _ => false
  | .managementPortLock => false
  | .invalidationComplete _ => false
  | .attestationReport => false

end Sys2Proof
end

