-- ==== Sys2Proof/Decode.lean ====
section
/-!
DEFINITION. Reading an instruction from the bytes of the instruction stream (R80 to R103), and writing one as its halfwords.
The layout of each format (R82, R89) is said once, by the function that reads it and the function that writes it.
A definition that builds a constructor of `Instr` beyond the 245th is `noncomputable`: Lean's compiler has no tag for it (its
kernel evaluates the definition like any other).
-/

namespace Sys2Proof

/-! ### Bit fields of a word -/

/-- The major opcode, bits 6:1 (R82). -/
def majorOf (w : BitVec 32) : BitVec 6 := w.extractLsb' 1 6

/-- fn, bits 31:24 of the R and S formats (R82). -/
def fnOf (w : BitVec 32) : BitVec 8 := w.extractLsb' 24 8

/-- fn5, bits 31:27 of the V format (R82). -/
def fn5Of (w : BitVec 32) : BitVec 5 := w.extractLsb' 27 5

/-- The type field, bits 26:24 of the V format (R82). -/
def typeOf (w : BitVec 32) : BitVec 3 := w.extractLsb' 24 3

/-- op, bits 4:1 of a 16-bit form (R89). -/
def opOf (h : BitVec 16) : BitVec 4 := h.extractLsb' 1 4


/-- The fields of the R format (R82): t bits of `b` and `a`, and the register fields. -/
def RArgs.read (w : BitVec 32) : RArgs :=
  ⟨w.extractLsb' 23 1, w.extractLsb' 22 1, w.extractLsb' 17 5, w.extractLsb' 12 5, w.extractLsb' 7 5⟩

/-- A word of the R format (R82): t bits of `b` and `a`, and the register fields. -/
def RArgs.word (major : BitVec 6) (fn : BitVec 8) (o : RArgs) : BitVec 32 :=
  fn ++ o.tb ++ o.ta ++ o.b ++ o.a ++ o.d ++ major ++ 1#1

/-- The fields of a returning AMO (R94): the reserved bits 31:30, the 32-bit width bit, and the R fields. -/
def AmoArgs.read (w : BitVec 32) : AmoArgs :=
  ⟨w.extractLsb' 30 2, w.extractLsb' 28 1, w.extractLsb' 23 1, w.extractLsb' 22 1, w.extractLsb' 17 5, w.extractLsb' 12 5, w.extractLsb' 7 5⟩

/-- A word of a returning AMO (R94): the reserved bits 31:30, the 32-bit width bit, and the R fields. -/
def AmoArgs.word (major : BitVec 6) (op : BitVec 4) (o : AmoArgs) : BitVec 32 :=
  o.r ++ 0#1 ++ o.w ++ op ++ o.tb ++ o.ta ++ o.b ++ o.a ++ o.d ++ major ++ 1#1

/-- The fields of a posted AMO (R94), whose `d` field is s0. -/
def AmoPArgs.read (w : BitVec 32) : AmoPArgs :=
  ⟨w.extractLsb' 30 2, w.extractLsb' 28 1, w.extractLsb' 23 1, w.extractLsb' 22 1, w.extractLsb' 17 5, w.extractLsb' 12 5⟩

/-- A word of a posted AMO (R94), whose `d` field is s0. -/
def AmoPArgs.word (major : BitVec 6) (op : BitVec 4) (o : AmoPArgs) : BitVec 32 :=
  o.r ++ 1#1 ++ o.w ++ op ++ o.tb ++ o.ta ++ o.b ++ o.a ++ 0#5 ++ major ++ 1#1

/-- The fields of a copy instruction (R100): reserved bit 31 and bits 30:29, queue, R fields. -/
def CpyArgs.read (w : BitVec 32) : CpyArgs :=
  ⟨w.extractLsb' 31 1, w.extractLsb' 29 2, w.extractLsb' 27 2, w.extractLsb' 23 1, w.extractLsb' 22 1, w.extractLsb' 17 5, w.extractLsb' 12 5, w.extractLsb' 7 5⟩

/-- A word of a copy instruction (R100): reserved bit 31 and bits 30:29, queue, R fields. -/
def CpyArgs.word (major : BitVec 6) (fn : BitVec 3) (o : CpyArgs) : BitVec 32 :=
  o.r ++ o.e ++ o.q ++ fn ++ o.tb ++ o.ta ++ o.b ++ o.a ++ o.d ++ major ++ 1#1

/-- The fields of QFENCE (R100): reserved bit 31, queue mask, R fields. -/
def QfArgs.read (w : BitVec 32) : QfArgs :=
  ⟨w.extractLsb' 31 1, w.extractLsb' 27 4, w.extractLsb' 23 1, w.extractLsb' 22 1, w.extractLsb' 17 5, w.extractLsb' 12 5, w.extractLsb' 7 5⟩

/-- A word of QFENCE (R100): reserved bit 31, queue mask, R fields. -/
def QfArgs.word (major : BitVec 6) (fn : BitVec 3) (o : QfArgs) : BitVec 32 :=
  o.r ++ o.k ++ fn ++ o.tb ++ o.ta ++ o.b ++ o.a ++ o.d ++ major ++ 1#1

/-- The fields of the I format (R82). -/
def IArgs.read (w : BitVec 32) : IArgs :=
  ⟨w.extractLsb' 18 14, w.extractLsb' 17 1, w.extractLsb' 12 5, w.extractLsb' 7 5⟩

/-- A word of the I format (R82). -/
def IArgs.word (major : BitVec 6) (o : IArgs) : BitVec 32 :=
  o.imm ++ o.ta ++ o.a ++ o.d ++ major ++ 1#1

/-- The fields of SHI (R92): reserved imm14<13:8>, shift amount. -/
def ShArgs.read (w : BitVec 32) : ShArgs :=
  ⟨w.extractLsb' 26 6, w.extractLsb' 18 6, w.extractLsb' 17 1, w.extractLsb' 12 5, w.extractLsb' 7 5⟩

/-- A word of SHI (R92): reserved imm14<13:8>, shift amount. -/
def ShArgs.word (major : BitVec 6) (fn : BitVec 2) (o : ShArgs) : BitVec 32 :=
  o.r ++ fn ++ o.n ++ o.ta ++ o.a ++ o.d ++ major ++ 1#1

/-- The fields of the U and J formats (R82). -/
def UArgs.read (w : BitVec 32) : UArgs :=
  ⟨w.extractLsb' 12 20, w.extractLsb' 7 5⟩

/-- A word of the U and J formats (R82). -/
def UArgs.word (major : BitVec 6) (o : UArgs) : BitVec 32 :=
  o.imm ++ o.d ++ major ++ 1#1

/-- The fields of the B format (R82). -/
def BArgs.read (w : BitVec 32) : BArgs :=
  ⟨w.extractLsb' 20 12, w.extractLsb' 12 5, w.extractLsb' 7 5⟩

/-- A word of the B format (R82). -/
def BArgs.word (major : BitVec 6) (fn : BitVec 3) (o : BArgs) : BitVec 32 :=
  o.disp ++ fn ++ o.b ++ o.a ++ major ++ 1#1

/-- The fields of the M format (R82). -/
def MArgs.read (w : BitVec 32) : MArgs :=
  ⟨w.extractLsb' 23 9, w.extractLsb' 21 2, w.extractLsb' 18 3, w.extractLsb' 17 1, w.extractLsb' 12 5, w.extractLsb' 7 5⟩

/-- A word of the M format (R82). -/
def MArgs.word (major : BitVec 6) (o : MArgs) : BitVec 32 :=
  o.imm ++ o.hint ++ o.size ++ o.t ++ o.base ++ o.d ++ major ++ 1#1

/-- The fields of a prefetch: the M format with `d` = s0 (R93). -/
def MpArgs.read (w : BitVec 32) : MpArgs :=
  ⟨w.extractLsb' 23 9, w.extractLsb' 21 2, w.extractLsb' 18 3, w.extractLsb' 17 1, w.extractLsb' 12 5⟩

/-- A word of a prefetch: the M format with `d` = s0 (R93). -/
def MpArgs.word (major : BitVec 6) (o : MpArgs) : BitVec 32 :=
  o.imm ++ o.hint ++ o.size ++ o.t ++ o.base ++ 0#5 ++ major ++ 1#1

/-- The fields of a store with hint .upd: the M format with hint 3 (R93). -/
def MuArgs.read (w : BitVec 32) : MuArgs :=
  ⟨w.extractLsb' 23 9, w.extractLsb' 18 3, w.extractLsb' 17 1, w.extractLsb' 12 5, w.extractLsb' 7 5⟩

/-- A word of a store with hint .upd: the M format with hint 3 (R93). -/
def MuArgs.word (major : BitVec 6) (o : MuArgs) : BitVec 32 :=
  o.imm ++ 3#2 ++ o.size ++ o.t ++ o.base ++ o.d ++ major ++ 1#1

/-- The fields of the S format (R82). -/
def SArgs.read (w : BitVec 32) : SArgs :=
  ⟨w.extractLsb' 12 12, w.extractLsb' 7 5⟩

/-- A word of the S format (R82). -/
def SArgs.word (major : BitVec 6) (fn : BitVec 8) (o : SArgs) : BitVec 32 :=
  fn ++ o.x ++ o.d ++ major ++ 1#1

/-- The fields of the V format (R158). -/
def VArgs.read (w : BitVec 32) : VArgs :=
  ⟨w.extractLsb' 24 3, w.extractLsb' 23 1, w.extractLsb' 22 1, w.extractLsb' 17 5, w.extractLsb' 12 5, w.extractLsb' 7 5⟩

/-- A word of the V format (R158). -/
def VArgs.word (major : BitVec 6) (fn : BitVec 5) (o : VArgs) : BitVec 32 :=
  fn ++ o.ty ++ o.bs ++ o.t ++ o.vb ++ o.va ++ o.vd ++ major ++ 1#1

/-- The fields of the V format where the type field selects the function. -/
def VnArgs.read (w : BitVec 32) : VnArgs :=
  ⟨w.extractLsb' 23 1, w.extractLsb' 22 1, w.extractLsb' 17 5, w.extractLsb' 12 5, w.extractLsb' 7 5⟩

/-- A word of the V format where the type field selects the function. -/
def VnArgs.word (major : BitVec 6) (fn : BitVec 5) (ty : BitVec 3) (o : VnArgs) : BitVec 32 :=
  fn ++ ty ++ o.bs ++ o.t ++ o.vb ++ o.va ++ o.vd ++ major ++ 1#1

/-- The fields of VCVT (R97): high source bits, .crest, .sat, then the V fields. -/
def CvArgs.read (w : BitVec 32) : CvArgs :=
  ⟨w.extractLsb' 30 2, w.extractLsb' 29 1, w.extractLsb' 28 1, w.extractLsb' 24 3, w.extractLsb' 23 1, w.extractLsb' 22 1, w.extractLsb' 17 5, w.extractLsb' 12 5, w.extractLsb' 7 5⟩

/-- A word of VCVT (R97): high source bits, .crest, .sat, then the V fields. -/
def CvArgs.word (major : BitVec 6) (fn : BitVec 1) (o : CvArgs) : BitVec 32 :=
  o.h ++ o.crest ++ o.sat ++ fn ++ o.ty ++ o.bs ++ o.t ++ o.vb ++ o.va ++ o.vd ++ major ++ 1#1

/-- The fields of TSEQ with va = s0 (R233). -/
def TfArgs.read (w : BitVec 32) : TfArgs :=
  ⟨w.extractLsb' 24 3, w.extractLsb' 23 1, w.extractLsb' 22 1, w.extractLsb' 17 5, w.extractLsb' 7 5⟩

/-- A word of TSEQ with va = s0 (R233). -/
def TfArgs.word (major : BitVec 6) (fn : BitVec 5) (o : TfArgs) : BitVec 32 :=
  fn ++ o.ty ++ o.bs ++ o.t ++ o.vb ++ 0#5 ++ o.vd ++ major ++ 1#1

/-- The fields of PREFIX (R86). -/
def PArgs.read (w : BitVec 32) : PArgs :=
  ⟨w.extractLsb' 20 12, w.extractLsb' 19 1, w.extractLsb' 14 5, w.extractLsb' 11 3, w.extractLsb' 10 1, w.extractLsb' 7 3⟩

/-- A word of PREFIX (R86). -/
def PArgs.word (major : BitVec 6) (o : PArgs) : BitVec 32 :=
  o.r ++ o.usec ++ o.c ++ o.rm ++ o.zero ++ o.mask ++ major ++ 1#1

/-- The fields of a 16-bit form (R89). -/
def HArgs.read (h : BitVec 16) : HArgs :=
  ⟨h.extractLsb' 15 1, h.extractLsb' 10 5, h.extractLsb' 5 5⟩

/-- A word of a 16-bit form (R89). -/
def HArgs.word (op : BitVec 4) (o : HArgs) : BitVec 16 :=
  o.tb ++ o.vb ++ o.vd ++ op ++ 0#1

/-- A hint-region word: major 0x38 to 0x3B (R102). -/
def HintArgs.read (w : BitVec 32) : HintArgs := ⟨w.extractLsb' 7 25, w.extractLsb' 1 2⟩

/-- A hint-region word: its bits 6:3 are 1110. -/
def HintArgs.word (o : HintArgs) : BitVec 32 := o.j ++ 14#4 ++ o.h ++ 1#1

/-! ### Reading a word: the group by its major opcode, the member by the group's selector -/

/-- The members of the ALU group (R91). -/
def readAlu (w : BitVec 32) : Except Illegal Instr :=
  match (fnOf w).toNat with
  | 0 => .ok (.add (RArgs.read w))
  | 1 => .ok (.sub (RArgs.read w))
  | 2 => .ok (.and (RArgs.read w))
  | 3 => .ok (.or (RArgs.read w))
  | 4 => .ok (.xor (RArgs.read w))
  | 5 => .ok (.sll (RArgs.read w))
  | 6 => .ok (.srl (RArgs.read w))
  | 7 => .ok (.sra (RArgs.read w))
  | 8 => .ok (.rol (RArgs.read w))
  | 9 => .ok (.slt (RArgs.read w))
  | 10 => .ok (.sltu (RArgs.read w))
  | 11 => .ok (.min (RArgs.read w))
  | 12 => .ok (.max (RArgs.read w))
  | 13 => .ok (.minu (RArgs.read w))
  | 14 => .ok (.maxu (RArgs.read w))
  | 15 => .ok (.cmov (RArgs.read w))
  | 16 => .ok (.mul (RArgs.read w))
  | 17 => .ok (.mulh (RArgs.read w))
  | 18 => .ok (.mulhu (RArgs.read w))
  | 19 => .ok (.div (RArgs.read w))
  | 20 => .ok (.divu (RArgs.read w))
  | 21 => .ok (.rem (RArgs.read w))
  | 22 => .ok (.remu (RArgs.read w))
  | 24 => .ok (.clz (RArgs.read w))
  | 25 => .ok (.ctz (RArgs.read w))
  | 26 => .ok (.popc (RArgs.read w))
  | 32 => .ok (.omk (RArgs.read w))
  | 33 => .ok (.oid (RArgs.read w))
  | 34 => .ok (.ooff (RArgs.read w))
  | 35 => .ok (.lspc (RArgs.read w))
  | _ => .error .function

/-- The members of the SHI group (R92). -/
def readShi (w : BitVec 32) : Except Illegal Instr :=
  match (w.extractLsb' 24 2).toNat with
  | 0 => .ok (.slli (ShArgs.read w))
  | 1 => .ok (.srli (ShArgs.read w))
  | 2 => .ok (.srai (ShArgs.read w))
  | _ => .ok (.roli (ShArgs.read w))

/-- The members of the BR group (R92). -/
def readBr (w : BitVec 32) : Except Illegal Instr :=
  match (w.extractLsb' 17 3).toNat with
  | 0 => .ok (.beq (BArgs.read w))
  | 1 => .ok (.bne (BArgs.read w))
  | 2 => .ok (.blt (BArgs.read w))
  | 3 => .ok (.bge (BArgs.read w))
  | 4 => .ok (.bltu (BArgs.read w))
  | 5 => .ok (.bgeu (BArgs.read w))
  | _ => .error .condition

/-- The members of the AMO group (R94). -/
def readAmo (w : BitVec 32) : Except Illegal Instr :=
  if w.extractLsb' 29 1 = 0 then
    match (w.extractLsb' 24 4).toNat with
    | 0 => .ok (.amoAdd (AmoArgs.read w))
    | 1 => .ok (.amoAnd (AmoArgs.read w))
    | 2 => .ok (.amoOr (AmoArgs.read w))
    | 3 => .ok (.amoXor (AmoArgs.read w))
    | 4 => .ok (.amoMin (AmoArgs.read w))
    | 5 => .ok (.amoMax (AmoArgs.read w))
    | 6 => .ok (.amoMinu (AmoArgs.read w))
    | 7 => .ok (.amoMaxu (AmoArgs.read w))
    | 8 => .ok (.amoSwap (AmoArgs.read w))
    | 9 => .ok (.amoCas (AmoArgs.read w))
    | _ => .error .function
  else if w.extractLsb' 7 5 ≠ 0 then .error .postedAtomic
  else
    match (w.extractLsb' 24 4).toNat with
    | 0 => .ok (.amoAddP (AmoPArgs.read w))
    | 1 => .ok (.amoAndP (AmoPArgs.read w))
    | 2 => .ok (.amoOrP (AmoPArgs.read w))
    | 3 => .ok (.amoXorP (AmoPArgs.read w))
    | 4 => .ok (.amoMinP (AmoPArgs.read w))
    | 5 => .ok (.amoMaxP (AmoPArgs.read w))
    | 6 => .ok (.amoMinuP (AmoPArgs.read w))
    | 7 => .ok (.amoMaxuP (AmoPArgs.read w))
    | 8 => .ok (.amoSwapP (AmoPArgs.read w))
    | 9 => .error .postedAtomic
    | _ => .error .function

/-- The members of the SYNC group (R95). -/
def readSync (w : BitVec 32) : Except Illegal Instr :=
  match (fnOf w).toNat with
  | 1 => .ok (.acqX (RArgs.read w))
  | 2 => .ok (.acqS (RArgs.read w))
  | 3 => .ok (.tryacqX (RArgs.read w))
  | 4 => .ok (.rel (RArgs.read w))
  | 5 => .ok (.bind (RArgs.read w))
  | 6 => .ok (.unbind (RArgs.read w))
  | 8 => .ok (.fenceG (RArgs.read w))
  | 9 => .ok (.fenceL (RArgs.read w))
  | 10 => .ok (.commit (RArgs.read w))
  | 16 => .ok (.mon (RArgs.read w))
  | 17 => .ok (.mwait (RArgs.read w))
  | 18 => .ok (.waitt (RArgs.read w))
  | _ => .error .function

/-- The members of the TASK group (R95). -/
def readTask (w : BitVec 32) : Except Illegal Instr :=
  match (fnOf w).toNat with
  | 1 => .ok (.fork (RArgs.read w))
  | 2 => .ok (.spawn (RArgs.read w))
  | 3 => .ok (.done (RArgs.read w))
  | 4 => .ok (.yield (RArgs.read w))
  | 5 => .ok (.dec (RArgs.read w))
  | 6 => .ok (.send (RArgs.read w))
  | 7 => .ok (.sendA (RArgs.read w))
  | 8 => .ok (.hold (RArgs.read w))
  | 9 => .ok (.ready (RArgs.read w))
  | 10 => .ok (.chbind (RArgs.read w))
  | _ => .error .function

/-- The members of the CLU group (R95). -/
def readClu (w : BitVec 32) : Except Illegal Instr :=
  match (fnOf w).toNat with
  | 1 => .ok (.gang (RArgs.read w))
  | 2 => .ok (.disband (RArgs.read w))
  | 3 => .ok (.crest (RArgs.read w))
  | 4 => .ok (.bar (RArgs.read w))
  | _ => .error .function

/-- The members of the SYS group (R95). -/
def readSys (w : BitVec 32) : Except Illegal Instr :=
  match (fnOf w).toNat with
  | 1 => .ok (.csrr (SArgs.read w))
  | 2 => .ok (.csrw (SArgs.read w))
  | 3 => .ok (.csrs (SArgs.read w))
  | 4 => .ok (.csrc (SArgs.read w))
  | 8 => .ok (.trap (SArgs.read w))
  | 9 => .ok (.brk (SArgs.read w))
  | 10 => .ok (.halt (SArgs.read w))
  | 11 => .ok (.sleep (SArgs.read w))
  | 12 => .ok (.tmark (SArgs.read w))
  | _ => .error .function

/-- The members of the VFP group (R96). -/
def readVfp (w : BitVec 32) : Except Illegal Instr :=
  match (fn5Of w).toNat with
  | 0 => .ok (.fadd (VArgs.read w))
  | 1 => .ok (.fsub (VArgs.read w))
  | 2 => .ok (.fmul (VArgs.read w))
  | 3 => .ok (.ffma (VArgs.read w))
  | 4 => .ok (.ffms (VArgs.read w))
  | 5 => .ok (.fnma (VArgs.read w))
  | 6 => .ok (.fdiv (VArgs.read w))
  | 7 => .ok (.fsqrt (VArgs.read w))
  | 8 => .ok (.fmin (VArgs.read w))
  | 9 => .ok (.fmax (VArgs.read w))
  | 10 => .ok (.fabs (VArgs.read w))
  | 11 => .ok (.fneg (VArgs.read w))
  | 12 => .ok (.fcpys (VArgs.read w))
  | 13 => .ok (.frnd (VArgs.read w))
  | _ => .error .function

/-- The members of the VINT group (R96). -/
def readVint (w : BitVec 32) : Except Illegal Instr :=
  match (fn5Of w).toNat with
  | 0 => .ok (.iadd (VArgs.read w))
  | 1 => .ok (.isub (VArgs.read w))
  | 2 => .ok (.imul (VArgs.read w))
  | 3 => .ok (.imulh (VArgs.read w))
  | 4 => .ok (.imulhu (VArgs.read w))
  | 5 => .ok (.iand (VArgs.read w))
  | 6 => .ok (.ior (VArgs.read w))
  | 7 => .ok (.ixor (VArgs.read w))
  | 8 => .ok (.ishl (VArgs.read w))
  | 9 => .ok (.ishr (VArgs.read w))
  | 10 => .ok (.isar (VArgs.read w))
  | 11 => .ok (.imin (VArgs.read w))
  | 12 => .ok (.imax (VArgs.read w))
  | 13 => .ok (.iabs (VArgs.read w))
  | 14 => .ok (.iadds (VArgs.read w))
  | 15 => .ok (.isubs (VArgs.read w))
  | 16 => .ok (.ipopc (VArgs.read w))
  | 17 => .ok (.iclz (VArgs.read w))
  | 18 => .ok (.iminu (VArgs.read w))
  | 19 => .ok (.imaxu (VArgs.read w))
  | _ => .error .function

/-- The members of the VCMP group (R96). -/
def readVcmp (w : BitVec 32) : Except Illegal Instr :=
  match (fn5Of w).toNat with
  | 0 => .ok (.fceq (VArgs.read w))
  | 1 => .ok (.fclt (VArgs.read w))
  | 2 => .ok (.fcle (VArgs.read w))
  | 3 => .ok (.fcun (VArgs.read w))
  | 4 => .ok (.fcne (VArgs.read w))
  | 5 => .ok (.iceq (VArgs.read w))
  | 6 => .ok (.iclt (VArgs.read w))
  | 7 => .ok (.icltu (VArgs.read w))
  | 8 => .ok (.icne (VArgs.read w))
  | 9 => .ok (.fclass (VArgs.read w))
  | 10 => .ok (.mand (VArgs.read w))
  | 11 => .ok (.mor (VArgs.read w))
  | 12 => .ok (.mxor (VArgs.read w))
  | 13 => .ok (.mandn (VArgs.read w))
  | 14 => .ok (.mnot (VArgs.read w))
  | _ => .error .function

/-- The members of the VSFU group (R96). -/
def readVsfu (w : BitVec 32) : Except Illegal Instr :=
  match (fn5Of w).toNat with
  | 0 => .ok (.frcp (VArgs.read w))
  | 1 => .ok (.frsq (VArgs.read w))
  | 2 => .ok (.fex2 (VArgs.read w))
  | 3 => .ok (.flg2 (VArgs.read w))
  | 4 => .ok (.fsin (VArgs.read w))
  | 5 => .ok (.fcos (VArgs.read w))
  | 6 => .ok (.ftanh (VArgs.read w))
  | _ => .error .function

/-- The members of the VRED group (R96). -/
def readVred (w : BitVec 32) : Except Illegal Instr :=
  match (fn5Of w).toNat with
  | 0 => .ok (.rsum (VArgs.read w))
  | 1 => .ok (.rmax (VArgs.read w))
  | 2 => .ok (.rmin (VArgs.read w))
  | 3 => .ok (.ramax (VArgs.read w))
  | 4 => .ok (.argmax (VArgs.read w))
  | 5 => .ok (.scan (VArgs.read w))
  | 6 =>
    match (typeOf w).toNat with
    | 0 => .ok (.voteAny (VnArgs.read w))
    | 1 => .ok (.voteAll (VnArgs.read w))
    | 2 => .ok (.voteNone (VnArgs.read w))
    | _ => .error .type
  | 7 => .ok (.popm (VArgs.read w))
  | _ => .error .function

/-- The members of the VPERM group (R96). -/
def readVperm (w : BitVec 32) : Except Illegal Instr :=
  match (fn5Of w).toNat with
  | 0 => .ok (.bcast (VArgs.read w))
  | 1 => .ok (.xtr (VArgs.read w))
  | 2 => .ok (.ins (VArgs.read w))
  | 3 => .ok (.perm (VArgs.read w))
  | 4 => .ok (.slide (VArgs.read w))
  | 5 => .ok (.iota (VArgs.read w))
  | _ => .error .function

/-- The members of the VLD group (R96). -/
def readVld (w : BitVec 32) : Except Illegal Instr :=
  match (fn5Of w).toNat with
  | 0 => .ok (.vld (VArgs.read w))
  | 1 => .ok (.vlds (VArgs.read w))
  | _ => .error .function

/-- The members of the VST group (R96). -/
def readVst (w : BitVec 32) : Except Illegal Instr :=
  match (fn5Of w).toNat with
  | 0 => .ok (.vst (VArgs.read w))
  | 1 => .ok (.vsts (VArgs.read w))
  | _ => .error .function

/-- The members of the VMEMX group (R96). -/
def readVmemx (w : BitVec 32) : Except Illegal Instr :=
  match (fn5Of w).toNat with
  | 0 => .ok (.vgath (VArgs.read w))
  | 1 => .ok (.vscat (VArgs.read w))
  | 2 => .ok (.vldt (VArgs.read w))
  | 3 => .ok (.vldl (VArgs.read w))
  | 4 => .ok (.vstl (VArgs.read w))
  | 5 => .ok (.vtag (VArgs.read w))
  | 6 => .ok (.vstag (VArgs.read w))
  | _ => .error .function

/-- The members of the VQNT group (R96). -/
def readVqnt (w : BitVec 32) : Except Illegal Instr :=
  match (fn5Of w).toNat with
  | 0 => .ok (.qnt (VArgs.read w))
  | 1 => .ok (.dqnt (VArgs.read w))
  | 2 =>
    match (typeOf w).toNat with
    | 0 => .ok (.unpk (VnArgs.read w))
    | 1 => .ok (.unpkT (VnArgs.read w))
    | _ => .error .type
  | 3 => .ok (.pack (VArgs.read w))
  | 4 => .ok (.ctab (VArgs.read w))
  | 5 => .ok (.ctenc (VArgs.read w))
  | 6 => .ok (.rng (VArgs.read w))
  | 7 => .ok (.ctld (VArgs.read w))
  | _ => .error .function

/-- The members of the MTX group (R100). -/
def readMtx (w : BitVec 32) : Except Illegal Instr :=
  match (fn5Of w).toNat with
  | 0 => .ok (.mma (VArgs.read w))
  | 1 => .ok (.mz (VArgs.read w))
  | 2 => .ok (.mld (VArgs.read w))
  | 3 => .ok (.mst (VArgs.read w))
  | 4 => .ok (.mrd (VArgs.read w))
  | 5 => .ok (.mwr (VArgs.read w))
  | 6 =>
    match (typeOf w).toNat with
    | 0 => .ok (.mcfgMode (VnArgs.read w))
    | 1 => .ok (.mcfgScale (VnArgs.read w))
    | _ => .error .type
  | _ => .error .function

/-- The members of the CPY group (R100). -/
def readCpy (w : BitVec 32) : Except Illegal Instr :=
  match (w.extractLsb' 24 3).toNat with
  | 0 => .ok (.cpy (CpyArgs.read w))
  | 1 => .ok (.cpya (CpyArgs.read w))
  | 2 => .ok (.cpyg (CpyArgs.read w))
  | 3 => .ok (.qfence (QfArgs.read w))
  | 4 => .ok (.cstat (CpyArgs.read w))
  | _ => .error .function

/-- The members of the REP group (R100). -/
def readRep (w : BitVec 32) : Except Illegal Instr :=
  match (fnOf w).toNat with
  | 0 => .ok (.repb (RArgs.read w))
  | 1 => .ok (.repx (RArgs.read w))
  | 2 => .ok (.repw (RArgs.read w))
  | _ => .error .function

/-- The members of the TOK group (R100). -/
def readTok (w : BitVec 32) : Except Illegal Instr :=
  match (fn5Of w).toNat with
  | 0 => if w.extractLsb' 12 5 = 0 then .ok (.tseqFree (TfArgs.read w)) else .ok (.tseq (VArgs.read w))
  | 1 => .ok (.wset (VArgs.read w))
  | 2 => .ok (.tcommit (VArgs.read w))
  | 3 => .ok (.tdraft (VArgs.read w))
  | 4 => .ok (.tconf (VArgs.read w))
  | 5 => .ok (.tread (VArgs.read w))
  | 6 => .ok (.wclr (VArgs.read w))
  | _ => .error .function

/-- The members of the EXP group (R100). -/
def readExp (w : BitVec 32) : Except Illegal Instr :=
  match (fnOf w).toNat with
  | 0 => .ok (.exroute (RArgs.read w))
  | 1 => .ok (.exspawn (RArgs.read w))
  | 2 => .ok (.exact (RArgs.read w))
  | 3 => .ok (.exretire (RArgs.read w))
  | 4 => .ok (.exjoin (RArgs.read w))
  | 132 => .ok (.exjoinF (RArgs.read w))
  | 5 => .ok (.exstat (RArgs.read w))
  | 6 => .ok (.expub (RArgs.read w))
  | _ => .error .function

/-- The members of the UPD group (R100). -/
def readUpd (w : BitVec 32) : Except Illegal Instr :=
  match (fnOf w).toNat with
  | 0 => .ok (.opta (RArgs.read w))
  | 1 => .ok (.optw (RArgs.read w))
  | 2 => .ok (.skipset (RArgs.read w))
  | 3 => .ok (.skipclr (RArgs.read w))
  | _ => .error .function

/-- LD and the prefetch (R93). -/
def readLd (w : BitVec 32) : Except Illegal Instr :=
  if w.extractLsb' 7 5 = 0 then .ok (.prefetch (MpArgs.read w)) else .ok (.ld (MArgs.read w))

/-- ST and its .upd hint (R93). -/
def readSt (w : BitVec 32) : Except Illegal Instr :=
  if w.extractLsb' 21 2 = 3 then .ok (.stUpd (MuArgs.read w)) else .ok (.st (MArgs.read w))

/-- CVT and CVTS, by fn5<0> (R97). -/
def readVcvt (w : BitVec 32) : Except Illegal Instr :=
  if w.extractLsb' 27 1 = 0 then .ok (.cvt (CvArgs.read w)) else .ok (.cvts (CvArgs.read w))

/-- The instruction that a 32-bit word stands for by its opcode fields alone (R90). -/
def read32 (w : BitVec 32) : Except Illegal Instr :=
  match (majorOf w).toNat with
  | 0 => readAlu w
  | 1 => .ok (.addi (IArgs.read w))
  | 2 => .ok (.andi (IArgs.read w))
  | 3 => .ok (.ori (IArgs.read w))
  | 4 => .ok (.xori (IArgs.read w))
  | 5 => .ok (.slti (IArgs.read w))
  | 6 => .ok (.sltiu (IArgs.read w))
  | 7 => readShi w
  | 8 => .ok (.lui (UArgs.read w))
  | 9 => .ok (.auipc (UArgs.read w))
  | 10 => readBr w
  | 11 => .ok (.jal (UArgs.read w))
  | 12 => .ok (.jalr (IArgs.read w))
  | 13 => readLd w
  | 14 => readSt w
  | 15 => readAmo w
  | 16 => readSync w
  | 17 => readTask w
  | 18 => readClu w
  | 19 => readSys w
  | 20 => readVfp w
  | 21 => readVint w
  | 22 => readVcmp w
  | 23 => readVcvt w
  | 24 => readVsfu w
  | 25 => readVred w
  | 26 => readVperm w
  | 27 => readVld w
  | 28 => readVst w
  | 29 => readVmemx w
  | 30 => readVqnt w
  | 31 => readMtx w
  | 32 => readCpy w
  | 33 => readRep w
  | 34 => readTok w
  | 35 => readExp w
  | 36 => readUpd w
  | 56 => .ok (.hint (HintArgs.read w))
  | 57 => .ok (.hint (HintArgs.read w))
  | 58 => .ok (.hint (HintArgs.read w))
  | 59 => .ok (.hint (HintArgs.read w))
  | 63 => .ok (.pfx (PArgs.read w))
  | _ => .error .major

/-- The instruction that a halfword stands for (R89). -/
noncomputable def read16 (h : BitVec 16) : Except Illegal Instr :=
  match (opOf h).toNat with
  | 0 => .ok (.vmov16 (HArgs.read h))
  | 1 => .ok (.fadd16 (HArgs.read h))
  | 2 => .ok (.fsub16 (HArgs.read h))
  | 3 => .ok (.fmul16 (HArgs.read h))
  | 4 => .ok (.fmax16 (HArgs.read h))
  | 5 => .ok (.fmin16 (HArgs.read h))
  | 6 => .ok (.fabs16 (HArgs.read h))
  | 7 => .ok (.fneg16 (HArgs.read h))
  | 8 => .ok (.iadd16 (HArgs.read h))
  | 9 => .ok (.isub16 (HArgs.read h))
  | 10 => .ok (.iand16 (HArgs.read h))
  | 11 => .ok (.ior16 (HArgs.read h))
  | 12 => .ok (.ixor16 (HArgs.read h))
  | 13 => .ok (.ishl16 (HArgs.read h))
  | 14 => .ok (.ishr16 (HArgs.read h))
  | _ => .ok (.imul16 (HArgs.read h))

/-- The reading stands when the instruction breaks no static rule (R103). -/
def checked : Except Illegal Instr → Except Illegal Instr
  | .error e => .error e
  | .ok i =>
    match i.illegal with
    | none => .ok i
    | some e => .error e

/-- A 32-bit word (bit 0 is 1) as an instruction, or why it is none. -/
def decode32 (w : BitVec 32) : Except Illegal Instr := checked (read32 w)

/-- A halfword (bit 0 is 0) as an instruction, or why it is none. -/
noncomputable def decode16 (h : BitVec 16) : Except Illegal Instr := checked (read16 h)

/-- A halfword from its two bytes, the lower address first (R80). -/
def halfword (b0 b1 : Byte) : BitVec 16 := b1 ++ b0

/-- The next instruction of a list of bytes, and the bytes after it (R80): bit 0 of the first halfword gives the length. -/
noncomputable def decode : List Byte → Except Illegal (Instr × List Byte)
  | b0 :: b1 :: rest =>
    if b0.getLsbD 0 then
      match rest with
      | b2 :: b3 :: rest' => (decode32 (halfword b2 b3 ++ halfword b0 b1)).map (·, rest')
      | _ => .error .truncated
    else (decode16 (halfword b0 b1)).map (·, rest)
  | _ => .error .truncated

/-! ### Writing an instruction as its word -/

/-- The code of an instruction: a halfword or a word (R80). -/
inductive Code where
  /-- A 16-bit form. -/
  | half (h : BitVec 16)
  /-- A 32-bit instruction. -/
  | word (w : BitVec 32)
  deriving DecidableEq, Repr

/-- The code of each encoded instruction; a step of another agent has none. -/
def code : Instr → Option Code
  | .add o => some (.word (RArgs.word 0 0 o))
  | .sub o => some (.word (RArgs.word 0 1 o))
  | .and o => some (.word (RArgs.word 0 2 o))
  | .or o => some (.word (RArgs.word 0 3 o))
  | .xor o => some (.word (RArgs.word 0 4 o))
  | .sll o => some (.word (RArgs.word 0 5 o))
  | .srl o => some (.word (RArgs.word 0 6 o))
  | .sra o => some (.word (RArgs.word 0 7 o))
  | .rol o => some (.word (RArgs.word 0 8 o))
  | .slt o => some (.word (RArgs.word 0 9 o))
  | .sltu o => some (.word (RArgs.word 0 10 o))
  | .min o => some (.word (RArgs.word 0 11 o))
  | .max o => some (.word (RArgs.word 0 12 o))
  | .minu o => some (.word (RArgs.word 0 13 o))
  | .maxu o => some (.word (RArgs.word 0 14 o))
  | .cmov o => some (.word (RArgs.word 0 15 o))
  | .mul o => some (.word (RArgs.word 0 16 o))
  | .mulh o => some (.word (RArgs.word 0 17 o))
  | .mulhu o => some (.word (RArgs.word 0 18 o))
  | .div o => some (.word (RArgs.word 0 19 o))
  | .divu o => some (.word (RArgs.word 0 20 o))
  | .rem o => some (.word (RArgs.word 0 21 o))
  | .remu o => some (.word (RArgs.word 0 22 o))
  | .clz o => some (.word (RArgs.word 0 24 o))
  | .ctz o => some (.word (RArgs.word 0 25 o))
  | .popc o => some (.word (RArgs.word 0 26 o))
  | .omk o => some (.word (RArgs.word 0 32 o))
  | .oid o => some (.word (RArgs.word 0 33 o))
  | .ooff o => some (.word (RArgs.word 0 34 o))
  | .lspc o => some (.word (RArgs.word 0 35 o))
  | .addi o => some (.word (IArgs.word 1 o))
  | .andi o => some (.word (IArgs.word 2 o))
  | .ori o => some (.word (IArgs.word 3 o))
  | .xori o => some (.word (IArgs.word 4 o))
  | .slti o => some (.word (IArgs.word 5 o))
  | .sltiu o => some (.word (IArgs.word 6 o))
  | .slli o => some (.word (ShArgs.word 7 0 o))
  | .srli o => some (.word (ShArgs.word 7 1 o))
  | .srai o => some (.word (ShArgs.word 7 2 o))
  | .roli o => some (.word (ShArgs.word 7 3 o))
  | .lui o => some (.word (UArgs.word 8 o))
  | .auipc o => some (.word (UArgs.word 9 o))
  | .beq o => some (.word (BArgs.word 10 0 o))
  | .bne o => some (.word (BArgs.word 10 1 o))
  | .blt o => some (.word (BArgs.word 10 2 o))
  | .bge o => some (.word (BArgs.word 10 3 o))
  | .bltu o => some (.word (BArgs.word 10 4 o))
  | .bgeu o => some (.word (BArgs.word 10 5 o))
  | .jal o => some (.word (UArgs.word 11 o))
  | .jalr o => some (.word (IArgs.word 12 o))
  | .ld o => some (.word (MArgs.word 13 o))
  | .prefetch o => some (.word (MpArgs.word 13 o))
  | .st o => some (.word (MArgs.word 14 o))
  | .stUpd o => some (.word (MuArgs.word 14 o))
  | .amoAdd o => some (.word (AmoArgs.word 15 0 o))
  | .amoAnd o => some (.word (AmoArgs.word 15 1 o))
  | .amoOr o => some (.word (AmoArgs.word 15 2 o))
  | .amoXor o => some (.word (AmoArgs.word 15 3 o))
  | .amoMin o => some (.word (AmoArgs.word 15 4 o))
  | .amoMax o => some (.word (AmoArgs.word 15 5 o))
  | .amoMinu o => some (.word (AmoArgs.word 15 6 o))
  | .amoMaxu o => some (.word (AmoArgs.word 15 7 o))
  | .amoSwap o => some (.word (AmoArgs.word 15 8 o))
  | .amoCas o => some (.word (AmoArgs.word 15 9 o))
  | .amoAddP o => some (.word (AmoPArgs.word 15 0 o))
  | .amoAndP o => some (.word (AmoPArgs.word 15 1 o))
  | .amoOrP o => some (.word (AmoPArgs.word 15 2 o))
  | .amoXorP o => some (.word (AmoPArgs.word 15 3 o))
  | .amoMinP o => some (.word (AmoPArgs.word 15 4 o))
  | .amoMaxP o => some (.word (AmoPArgs.word 15 5 o))
  | .amoMinuP o => some (.word (AmoPArgs.word 15 6 o))
  | .amoMaxuP o => some (.word (AmoPArgs.word 15 7 o))
  | .amoSwapP o => some (.word (AmoPArgs.word 15 8 o))
  | .acqX o => some (.word (RArgs.word 16 1 o))
  | .acqS o => some (.word (RArgs.word 16 2 o))
  | .tryacqX o => some (.word (RArgs.word 16 3 o))
  | .rel o => some (.word (RArgs.word 16 4 o))
  | .bind o => some (.word (RArgs.word 16 5 o))
  | .unbind o => some (.word (RArgs.word 16 6 o))
  | .fenceG o => some (.word (RArgs.word 16 8 o))
  | .fenceL o => some (.word (RArgs.word 16 9 o))
  | .commit o => some (.word (RArgs.word 16 10 o))
  | .mon o => some (.word (RArgs.word 16 16 o))
  | .mwait o => some (.word (RArgs.word 16 17 o))
  | .waitt o => some (.word (RArgs.word 16 18 o))
  | .fork o => some (.word (RArgs.word 17 1 o))
  | .spawn o => some (.word (RArgs.word 17 2 o))
  | .done o => some (.word (RArgs.word 17 3 o))
  | .yield o => some (.word (RArgs.word 17 4 o))
  | .dec o => some (.word (RArgs.word 17 5 o))
  | .send o => some (.word (RArgs.word 17 6 o))
  | .sendA o => some (.word (RArgs.word 17 7 o))
  | .hold o => some (.word (RArgs.word 17 8 o))
  | .ready o => some (.word (RArgs.word 17 9 o))
  | .chbind o => some (.word (RArgs.word 17 10 o))
  | .gang o => some (.word (RArgs.word 18 1 o))
  | .disband o => some (.word (RArgs.word 18 2 o))
  | .crest o => some (.word (RArgs.word 18 3 o))
  | .bar o => some (.word (RArgs.word 18 4 o))
  | .csrr o => some (.word (SArgs.word 19 1 o))
  | .csrw o => some (.word (SArgs.word 19 2 o))
  | .csrs o => some (.word (SArgs.word 19 3 o))
  | .csrc o => some (.word (SArgs.word 19 4 o))
  | .trap o => some (.word (SArgs.word 19 8 o))
  | .brk o => some (.word (SArgs.word 19 9 o))
  | .halt o => some (.word (SArgs.word 19 10 o))
  | .sleep o => some (.word (SArgs.word 19 11 o))
  | .tmark o => some (.word (SArgs.word 19 12 o))
  | .fadd o => some (.word (VArgs.word 20 0 o))
  | .fsub o => some (.word (VArgs.word 20 1 o))
  | .fmul o => some (.word (VArgs.word 20 2 o))
  | .ffma o => some (.word (VArgs.word 20 3 o))
  | .ffms o => some (.word (VArgs.word 20 4 o))
  | .fnma o => some (.word (VArgs.word 20 5 o))
  | .fdiv o => some (.word (VArgs.word 20 6 o))
  | .fsqrt o => some (.word (VArgs.word 20 7 o))
  | .fmin o => some (.word (VArgs.word 20 8 o))
  | .fmax o => some (.word (VArgs.word 20 9 o))
  | .fabs o => some (.word (VArgs.word 20 10 o))
  | .fneg o => some (.word (VArgs.word 20 11 o))
  | .fcpys o => some (.word (VArgs.word 20 12 o))
  | .frnd o => some (.word (VArgs.word 20 13 o))
  | .iadd o => some (.word (VArgs.word 21 0 o))
  | .isub o => some (.word (VArgs.word 21 1 o))
  | .imul o => some (.word (VArgs.word 21 2 o))
  | .imulh o => some (.word (VArgs.word 21 3 o))
  | .imulhu o => some (.word (VArgs.word 21 4 o))
  | .iand o => some (.word (VArgs.word 21 5 o))
  | .ior o => some (.word (VArgs.word 21 6 o))
  | .ixor o => some (.word (VArgs.word 21 7 o))
  | .ishl o => some (.word (VArgs.word 21 8 o))
  | .ishr o => some (.word (VArgs.word 21 9 o))
  | .isar o => some (.word (VArgs.word 21 10 o))
  | .imin o => some (.word (VArgs.word 21 11 o))
  | .imax o => some (.word (VArgs.word 21 12 o))
  | .iabs o => some (.word (VArgs.word 21 13 o))
  | .iadds o => some (.word (VArgs.word 21 14 o))
  | .isubs o => some (.word (VArgs.word 21 15 o))
  | .ipopc o => some (.word (VArgs.word 21 16 o))
  | .iclz o => some (.word (VArgs.word 21 17 o))
  | .iminu o => some (.word (VArgs.word 21 18 o))
  | .imaxu o => some (.word (VArgs.word 21 19 o))
  | .fceq o => some (.word (VArgs.word 22 0 o))
  | .fclt o => some (.word (VArgs.word 22 1 o))
  | .fcle o => some (.word (VArgs.word 22 2 o))
  | .fcun o => some (.word (VArgs.word 22 3 o))
  | .fcne o => some (.word (VArgs.word 22 4 o))
  | .iceq o => some (.word (VArgs.word 22 5 o))
  | .iclt o => some (.word (VArgs.word 22 6 o))
  | .icltu o => some (.word (VArgs.word 22 7 o))
  | .icne o => some (.word (VArgs.word 22 8 o))
  | .fclass o => some (.word (VArgs.word 22 9 o))
  | .mand o => some (.word (VArgs.word 22 10 o))
  | .mor o => some (.word (VArgs.word 22 11 o))
  | .mxor o => some (.word (VArgs.word 22 12 o))
  | .mandn o => some (.word (VArgs.word 22 13 o))
  | .mnot o => some (.word (VArgs.word 22 14 o))
  | .cvt o => some (.word (CvArgs.word 23 0 o))
  | .cvts o => some (.word (CvArgs.word 23 1 o))
  | .frcp o => some (.word (VArgs.word 24 0 o))
  | .frsq o => some (.word (VArgs.word 24 1 o))
  | .fex2 o => some (.word (VArgs.word 24 2 o))
  | .flg2 o => some (.word (VArgs.word 24 3 o))
  | .fsin o => some (.word (VArgs.word 24 4 o))
  | .fcos o => some (.word (VArgs.word 24 5 o))
  | .ftanh o => some (.word (VArgs.word 24 6 o))
  | .rsum o => some (.word (VArgs.word 25 0 o))
  | .rmax o => some (.word (VArgs.word 25 1 o))
  | .rmin o => some (.word (VArgs.word 25 2 o))
  | .ramax o => some (.word (VArgs.word 25 3 o))
  | .argmax o => some (.word (VArgs.word 25 4 o))
  | .scan o => some (.word (VArgs.word 25 5 o))
  | .voteAny o => some (.word (VnArgs.word 25 6 0 o))
  | .voteAll o => some (.word (VnArgs.word 25 6 1 o))
  | .voteNone o => some (.word (VnArgs.word 25 6 2 o))
  | .popm o => some (.word (VArgs.word 25 7 o))
  | .bcast o => some (.word (VArgs.word 26 0 o))
  | .xtr o => some (.word (VArgs.word 26 1 o))
  | .ins o => some (.word (VArgs.word 26 2 o))
  | .perm o => some (.word (VArgs.word 26 3 o))
  | .slide o => some (.word (VArgs.word 26 4 o))
  | .iota o => some (.word (VArgs.word 26 5 o))
  | .vld o => some (.word (VArgs.word 27 0 o))
  | .vlds o => some (.word (VArgs.word 27 1 o))
  | .vst o => some (.word (VArgs.word 28 0 o))
  | .vsts o => some (.word (VArgs.word 28 1 o))
  | .vgath o => some (.word (VArgs.word 29 0 o))
  | .vscat o => some (.word (VArgs.word 29 1 o))
  | .vldt o => some (.word (VArgs.word 29 2 o))
  | .vldl o => some (.word (VArgs.word 29 3 o))
  | .vstl o => some (.word (VArgs.word 29 4 o))
  | .vtag o => some (.word (VArgs.word 29 5 o))
  | .vstag o => some (.word (VArgs.word 29 6 o))
  | .qnt o => some (.word (VArgs.word 30 0 o))
  | .dqnt o => some (.word (VArgs.word 30 1 o))
  | .unpk o => some (.word (VnArgs.word 30 2 0 o))
  | .unpkT o => some (.word (VnArgs.word 30 2 1 o))
  | .pack o => some (.word (VArgs.word 30 3 o))
  | .ctab o => some (.word (VArgs.word 30 4 o))
  | .ctenc o => some (.word (VArgs.word 30 5 o))
  | .rng o => some (.word (VArgs.word 30 6 o))
  | .ctld o => some (.word (VArgs.word 30 7 o))
  | .mma o => some (.word (VArgs.word 31 0 o))
  | .mz o => some (.word (VArgs.word 31 1 o))
  | .mld o => some (.word (VArgs.word 31 2 o))
  | .mst o => some (.word (VArgs.word 31 3 o))
  | .mrd o => some (.word (VArgs.word 31 4 o))
  | .mwr o => some (.word (VArgs.word 31 5 o))
  | .mcfgMode o => some (.word (VnArgs.word 31 6 0 o))
  | .mcfgScale o => some (.word (VnArgs.word 31 6 1 o))
  | .cpy o => some (.word (CpyArgs.word 32 0 o))
  | .cpya o => some (.word (CpyArgs.word 32 1 o))
  | .cpyg o => some (.word (CpyArgs.word 32 2 o))
  | .qfence o => some (.word (QfArgs.word 32 3 o))
  | .cstat o => some (.word (CpyArgs.word 32 4 o))
  | .repb o => some (.word (RArgs.word 33 0 o))
  | .repx o => some (.word (RArgs.word 33 1 o))
  | .repw o => some (.word (RArgs.word 33 2 o))
  | .tseq o => some (.word (VArgs.word 34 0 o))
  | .tseqFree o => some (.word (TfArgs.word 34 0 o))
  | .wset o => some (.word (VArgs.word 34 1 o))
  | .tcommit o => some (.word (VArgs.word 34 2 o))
  | .tdraft o => some (.word (VArgs.word 34 3 o))
  | .tconf o => some (.word (VArgs.word 34 4 o))
  | .tread o => some (.word (VArgs.word 34 5 o))
  | .wclr o => some (.word (VArgs.word 34 6 o))
  | .exroute o => some (.word (RArgs.word 35 0 o))
  | .exspawn o => some (.word (RArgs.word 35 1 o))
  | .exact o => some (.word (RArgs.word 35 2 o))
  | .exretire o => some (.word (RArgs.word 35 3 o))
  | .exjoin o => some (.word (RArgs.word 35 4 o))
  | .exjoinF o => some (.word (RArgs.word 35 132 o))
  | .exstat o => some (.word (RArgs.word 35 5 o))
  | .expub o => some (.word (RArgs.word 35 6 o))
  | .opta o => some (.word (RArgs.word 36 0 o))
  | .optw o => some (.word (RArgs.word 36 1 o))
  | .skipset o => some (.word (RArgs.word 36 2 o))
  | .skipclr o => some (.word (RArgs.word 36 3 o))
  | .pfx o => some (.word (PArgs.word 63 o))
  | .hint o => some (.word o.word)
  | .vmov16 o => some (.half (HArgs.word 0 o))
  | .fadd16 o => some (.half (HArgs.word 1 o))
  | .fsub16 o => some (.half (HArgs.word 2 o))
  | .fmul16 o => some (.half (HArgs.word 3 o))
  | .fmax16 o => some (.half (HArgs.word 4 o))
  | .fmin16 o => some (.half (HArgs.word 5 o))
  | .fabs16 o => some (.half (HArgs.word 6 o))
  | .fneg16 o => some (.half (HArgs.word 7 o))
  | .iadd16 o => some (.half (HArgs.word 8 o))
  | .isub16 o => some (.half (HArgs.word 9 o))
  | .iand16 o => some (.half (HArgs.word 10 o))
  | .ior16 o => some (.half (HArgs.word 11 o))
  | .ixor16 o => some (.half (HArgs.word 12 o))
  | .ishl16 o => some (.half (HArgs.word 13 o))
  | .ishr16 o => some (.half (HArgs.word 14 o))
  | .imul16 o => some (.half (HArgs.word 15 o))
  | .dataReturn _ _ => none
  | .translationWalk _ _ => none
  | .faultPacketSend _ => none
  | .outboxEntryLeave _ => none
  | .messageDelivery _ => none
  | .messageRefusal _ => none
  | .holdArrival _ => none
  | .readyArrival _ => none
  | .taskPush _ => none
  | .decAtHome _ => none
  | .deferredPush _ => none
  | .decRefusal _ => none
  | .atomicAtHome _ => none
  | .writeBackMerge _ _ => none
  | .activationChoice _ => none
  | .idleWake _ => none
  | .stealProbe _ => none
  | .yieldDeadline _ => none
  | .sleepExpiry _ => none
  | .monitorTrigger _ => none
  | .waittExpiry _ => none
  | .copyChunk _ _ => none
  | .mmaAccumulate _ => none
  | .repIteration _ => none
  | .homeAcquire _ => none
  | .surrender _ => none
  | .acquireGrant _ => none
  | .messageAcquireGrant _ => none
  | .releaseAtHome _ => none
  | .acquireWithdrawal _ => none
  | .acquireRetry _ => none
  | .crestContribution _ => none
  | .crscLanding _ => none
  | .expertHomeOperation _ => none
  | .expertAnswer _ => none
  | .launchPost _ _ => none
  | .launchAdmission _ => none
  | .stampRecheck _ => none
  | .rqgoPush _ _ => none
  | .rqgoDrop _ _ => none
  | .sdgo _ _ => none
  | .shootdownComplete _ => none
  | .pvgo _ _ => none
  | .vacateHandoff _ => none
  | .xtinv _ _ => none
  | .skipfWrite _ => none
  | .governorPeriod => none
  | .esnap _ => none
  | .packageReset => none
  | .firmwareBoot => none
  | .hmsg _ _ => none
  | .hostMessageLeave => none
  | .packageServiceMessageLeave => none
  | .cxlMemRead _ => none
  | .cxlMemWrite _ _ => none
  | .hostSnoop _ => none
  | .bfgo _ => none
  | .biasFlipComplete => none
  | .hostLinkDown => none
  | .hostLinkUp => none
  | .emgo _ _ => none
  | .ergRetry _ => none
  | .ergFlitArrival _ => none
  | .ergAck _ => none
  | .ergPortDown _ => none
  | .ergUnreachable _ => none
  | .ergLinkTraining _ => none
  | .sampleRecord _ => none
  | .traceFlush _ => none
  | .resume _ => none
  | .restart _ => none
  | .kill _ => none
  | .stop _ => none
  | .cancel _ => none
  | .preciseStop _ => none
  | .mcfgmWrite _ _ => none
  | .dstatWrite _ _ => none
  | .cxcancel _ _ => none
  | .lbgoDispatch _ => none
  | .lbgoDrop _ => none
  | .drqLoad _ => none
  | .drqStore _ => none
  | .drrev _ => none
  | .registerWrite _ _ => none
  | .managementPortLock => none
  | .invalidationComplete _ => none
  | .attestationReport => none

/-- The bytes of an instruction in memory, little-endian halfwords (R80). -/
def Code.bytes : Code → List Byte
  | .half h => [h.extractLsb' 0 8, h.extractLsb' 8 8]
  | .word w => [w.extractLsb' 0 8, w.extractLsb' 8 8, w.extractLsb' 16 8, w.extractLsb' 24 8]

/-- The bytes of an instruction; none for a step of another agent. -/
def encode (i : Instr) : List Byte :=
  match code i with
  | some c => c.bytes
  | none => []

/-- The instruction word as the fault packet carries it: a 16-bit form in bits 15:0 with bits 31:16 zero (R74). -/
def insnWord (i : Instr) : BitVec 32 :=
  match code i with
  | some (.half h) => h.setWidth 32
  | some (.word w) => w
  | none => 0

/-- The length of an instruction in bytes (R80). -/
def lengthOf (i : Instr) : Nat :=
  match code i with
  | some (.half _) => 2
  | _ => 4

/-- The bytes of a word whose bit 0 is the lowest bit of the first byte, extended with zero bytes to 8. -/
def tableBytes (w : Nat) : List Byte := (List.range 8).map fun k => BitVec.ofNat 8 (w >>> (8 * k))

/-- What the decoder reads from the instruction whose bits are `w`, bit 0 the least significant bit of its first halfword. -/
noncomputable def decodeTableWord (_nbits w : Nat) : Option Instr :=
  match decode (tableBytes w) with
  | .ok (i, _) => some i
  | .error _ => none

end Sys2Proof
end

