-- ==== Sys2Proof/Config.lean ====
section
/-!
DEFINITION. What the manual leaves open: free values. Each is a constant without a body, so that no proof can see which value
it has; what a claim says of it holds whatever it is.
-/

namespace Sys2Proof.Config

/-- The cycles, beyond one, that a step of the package takes (R3, R443); the argument counts the steps. -/
opaque stepCycles : Nat → Nat

/-- A byte whose value the manual leaves unspecified; the argument counts the free values drawn. -/
opaque freeByte : Nat → Byte

/-- A 64-bit value that the manual leaves unspecified. -/
opaque freeWord : Nat → Word

/-- Which of `n` candidates the hardware replaces, where the manual fixes no order (R63, R284, R302). -/
opaque victim : Nat → Nat → Nat

/-- The F32 result of special function `f` of R165 for the input pattern: it counts only where it lies within the stated bound. -/
opaque sfuF32 : Nat → Lane → Lane

/-- A choice of order that the manual leaves to the hardware: which of `n` candidates goes first. -/
opaque pick : Nat → Nat → Nat

/-- Measured in governor period `n`: how far filler work raises the package power in its band, in milliwatts, and the demand in watts
(R408, R409). -/
opaque power : Nat → BitVec 16
opaque demand : Nat → BitVec 16

/-- The management port's time: seconds and nanoseconds (R410). -/
opaque timeSeconds : Nat → BitVec 48
opaque timeNanos : Nat → BitVec 32

/-- The bytes of an attestation report over a nonce (R413). -/
opaque attestation : List Byte → List Byte

/-- Where boot firmware puts the object table and the expert table in the package's DRAM (R413). -/
opaque bootOtbase : Nat
opaque bootXtbase : Nat

end Sys2Proof.Config
end

