-- ==== Sys2Proof/Machine/State.lean ====
section
/-!
DEFINITION. The state of the package as plain data: every core, every memory, every queue and register the manual names,
and its values at reset. Nothing here computes.
-/

namespace Sys2Proof.Machine

/-! ### Registers of a core -/

/-- A vector register: one 32-bit share per lane (R13). -/
abbrev VReg := Vector Lane 128

/-- A matrix accumulator tile: 32 × 32 elements, row by row; a 32-bit element in bits 31:0 of its cell (R47, R193). -/
abbrev Tile := Vector Word 1024

/-- The five sticky flag sets (R36). -/
structure FlagSets where
  nv : Mask
  dz : Mask
  of : Mask
  uf : Mask
  nx : Mask
  deriving DecidableEq, Repr

/-- The hold of a binding slot (R308). -/
inductive Hold where
  /-- The core does not hold the cairn. -/
  | none
  /-- A shared hold. -/
  | shared
  /-- An exclusive hold. -/
  | exclusive
  deriving DecidableEq, Repr

/-- A binding slot (R55, R308). -/
structure Slot where
  /-- BINDn.V. -/
  valid : Bool
  /-- BINDn.CAIRN. -/
  cairn : Word
  hold : Hold
  /-- LOCAL: the hold was taken without asking the home. -/
  loc : Bool
  /-- RET: the home records this core as the lent last releaser. -/
  ret : Bool
  /-- WAIT: the home has told the core that acquirers are waiting. -/
  wait : Bool
  /-- EPOCH: the HCNT of the latest grant from the home. -/
  epoch : Word
  /-- LREL: local releases not yet reported. -/
  lrel : Word
  /-- STICKY: set by BIND. -/
  sticky : Bool
  /-- When the slot was allocated, counted in allocations of this core. -/
  order : Nat
  deriving DecidableEq, Repr

/-- A line of the L1 data cache (R63, R182, R283, R290, R309). -/
structure Line where
  /-- The object address of the block, bits 5:0 zero. -/
  addr : Word
  /-- The binding slot, for a line of a bound object. -/
  slot : Option Nat
  data : BitVec 512
  /-- Bit k: byte k is valid. -/
  valid : BitVec 64
  /-- Bit k: byte k is dirty. -/
  dirty : BitVec 64
  tag : Tag
  tagValid : BitVec 5
  tagDirty : BitVec 5
  /-- Uncommitted dirty. -/
  unc : Bool
  /-- Marked for recheck by a shoot-down (R290). -/
  recheck : Bool
  perm : BitVec 5
  cls : BitVec 2
  /-- The number of the block's bytes below LEN. -/
  inb : Nat
  /-- ALIAS of the object. -/
  aliased : Bool
  /-- The physical address of the block's home. -/
  phys : Nat
  /-- Placed last in the replacement order (R64). -/
  low : Bool
  deriving DecidableEq, Repr

/-- A line of the L1 instruction cache: 64 bytes, and which of them are below LEN (R63, R139). -/
structure ILine where
  addr : Word
  data : BitVec 512
  inb : Nat
  phys : Nat
  deriving DecidableEq, Repr

/-! ### Work waiting in a core -/

/-- Who issued an instruction: the fields of the fault packet that an outbox entry records (R256). -/
structure Issuer where
  pc : Word
  insn : BitVec 32
  tag : BitVec 9
  epc : Word
  /-- Which activation of its core, counted from reset. -/
  actNo : Nat
  deriving DecidableEq, Repr

/-- The ten atomic operations (R94). -/
inductive AmoOp where
  | add | and | or | xor | min | max | minu | maxu | swap | cas
  deriving DecidableEq, Repr

/-- A task record: entry and class and CB, and three argument words (R59). -/
structure TaskRecord where
  w0 : Word
  w1 : Word
  w2 : Word
  w3 : Word
  deriving DecidableEq, Repr

/-- A cairn hold in the hands of a message or a continuation (R58, R313, R445). -/
structure PassedHold where
  cairn : Word
  exclusive : Bool
  /-- HCNT at the grant, for a hold already granted to this party. -/
  epoch : Word
  /-- Notices that acquirers wait, kept with the hold. -/
  wait : Bool
  /-- LOCAL and the local releases not yet reported. -/
  loc : Bool
  /-- The core that the home records for it. -/
  by_ : Nat
  deriving DecidableEq, Repr

/-- A channel buffer slot of a core of this package: core, channel, slot (R62). -/
structure MsgSlot where
  core : Nat
  ch : Nat
  slot : Nat
  deriving DecidableEq, Repr

/-- What hardware keeps with a record: its origin, what passes to its activation, and the launch it belongs to (R59, R445, R331). -/
structure Carried where
  origin : BitVec 3
  holds : List PassedHold
  msg : Option MsgSlot
  /-- The launch number of a launch's first activation, 0 for none. -/
  launch : Nat
  /-- LIDX at entry, for an activation of a FLAT launch. -/
  lidx : Option Word
  deriving DecidableEq, Repr

/-- What an outbox entry does where it arrives (R66, R255, R261, R151, R345, R341). -/
inductive Cargo where
  /-- SEND: destination, channel, message bytes. -/
  | msg (dst ch : Nat) (bytes : List Byte)
  /-- SEND.A: as SEND, with the cairn of the implicit acquire. -/
  | msgAcq (dst ch : Nat) (bytes : List Byte) (cairn : Word)
  /-- HOLD. -/
  | hold (dst ch : Nat) (v : Bool)
  /-- READY. -/
  | ready (dst ch : Nat) (v : Bool)
  /-- A posted atomic: operation, width in bytes, address, physical address, operand. -/
  | amo (op : AmoOp) (bytes : Nat) (ea : Word) (phys : Nat) (b : Word)
  /-- DEC: the counter block's address, its physical address, the amount. -/
  | dec (ea : Word) (phys : Nat) (n : Word)
  /-- FORK or SPAWN: target core, record, what it carries. -/
  | push (dst : Nat) (rec : TaskRecord) (c : Carried)
  deriving DecidableEq, Repr

/-- An outbox entry (R66, R256). -/
structure OutEntry where
  cargo : Cargo
  by_ : Issuer
  committed : Bool
  /-- The refusal has returned: it waits at the head (R256, R348). -/
  refused : Bool
  /-- Marked for recheck by a shoot-down (R151). -/
  recheck : Bool
  /-- Made by the scalar pipeline while the repetition sequence before it still ran: a commit point within the sequence does not
  reach it (R220). -/
  late : Bool
  deriving DecidableEq, Repr

/-- A value on its way to its register (R49). -/
structure Inflight where
  sdest : Option (Nat × Word)
  vdest : List (Nat × VReg)
  deriving DecidableEq, Repr

/-- A message in a channel buffer: its slot, sender, length, and the acquire it carries (R58, R255). -/
structure Buffered where
  ch : Nat
  slot : Nat
  sender : Nat
  len : Nat
  /-- The cairn of a SEND.A message. -/
  cairn : Option Word
  /-- The acquire has been requested at the home. -/
  asked : Bool
  /-- The hold, once granted. -/
  grant : Option PassedHold
  /-- An activation has started from it. -/
  started : Bool
  deriving DecidableEq, Repr

/-- A park entry (R445). -/
structure ParkEntry where
  holds : List PassedHold
  msg : Option MsgSlot
  deriving DecidableEq, Repr

/-- A fault packet (R74). -/
structure Packet where
  core : Nat
  cause : BitVec 8
  flags : BitVec 8
  insn : BitVec 32
  pc : Word
  rpc : Word
  addr : Word
  tag : BitVec 9
  member : BitVec 16
  det1 : BitVec 32
  epc : Word
  cyc : Word
  det2 : Word
  deriving DecidableEq, Repr

/-- The prefix that governs the instruction in issue (R86). -/
structure Pfx where
  mask : BitVec 3
  zero : Bool
  rm : BitVec 3
  usec : Bool
  c : BitVec 5
  deriving DecidableEq, Repr

/-- The current activation (R57, R74, R445). -/
structure Activation where
  epc : Word
  /-- s4 at entry. -/
  tag : BitVec 9
  lat : Bool
  origin : BitVec 3
  /-- The record is cluster-bound (R59). -/
  cb : Bool
  /-- The message slot that it keeps occupied. -/
  msg : Option MsgSlot
  /-- The launch number, 0 for none. -/
  launch : Nat
  deriving DecidableEq, Repr

/-- A monitor of a core (R324): its core, the physical block, whether it has been triggered, and whether the home's table, which was
full, holds no entry for it. -/
structure Monitor where
  core : Nat
  block : Nat
  hit : Bool
  beyond : Bool
  deriving DecidableEq, Repr

/-- What an instruction that has begun waits for; the core issues nothing meanwhile. -/
inductive Wait where
  /-- SLEEP until CYC reaches the time (R156). -/
  | sleep (until_ : Word)
  /-- MWAIT (R324). -/
  | mwait
  /-- WAITT: the time, whether it traps, and which queues have had their miss counted (R325). -/
  | waitt (until_ : Word) (trap : Bool) (counted : BitVec 4)
  /-- An acquire at its home: cairn, exclusive, try, destination, slot (R310). -/
  | acquire (cairn : Word) (excl try_ : Bool) (d : Nat) (slot : Nat)
  /-- CREST or BAR: scope and context (R269). -/
  | crest (scope ctx : Nat)
  /-- A park that found no free park entry, and its packet, which lacks the park number (R74, R445). -/
  | parkEntry (rec : TaskRecord) (holds : List PassedHold) (msg : Option MsgSlot) (packet : Packet)
  /-- An EXROUTE waits for its answer before a commit point may pass (R384). -/
  | expert
  /-- A follower of a broken caravan, resumed, is to commit its region and reach a boundary once its registers are full (R56, R266). -/
  | leave
  deriving DecidableEq, Repr

/-- What a core is doing (R56, R73, R334, R336, R434). -/
inductive Phase where
  /-- No work was found; the core waits to be woken (R336). -/
  | idle
  /-- At an activation boundary, before its choice (R334). -/
  | boundary
  /-- Running an activation. -/
  | run
  /-- An instruction of the activation waits. -/
  | wait (w : Wait)
  /-- Frozen (R73). -/
  | frozen
  /-- Stopped at a boundary by CMD 4 (R434). -/
  | stopped
  /-- A caravan follower (R264). -/
  | follower
  deriving DecidableEq, Repr

/-- A supervisor command that waits until the instruction in issue, which has committed, has retired (R146, R235, R403): RESTART, KILL, or
the RESUME of a follower of a broken caravan (R266). -/
inductive Closing where
  | restart | kill | leave
  deriving DecidableEq, Repr

/-- The three copies (R208, R211, R212). -/
inductive CopyKind where
  | cpy | cpya | cpyg
  deriving DecidableEq, Repr

/-- A copy operation of a queue (R208 to R214). -/
structure CopyOp where
  kind : CopyKind
  src : Word
  dst : Word
  /-- Length in bytes; for CPYG the entry count. -/
  len : Nat
  /-- CPYA element: B16. -/
  b16 : Bool
  promise : Word
  /-- Destination bytes already acknowledged. -/
  pos : Nat
  /-- CPYG: entries consumed, and bytes of the current entry copied. -/
  entry : Nat
  entryPos : Nat
  deriving DecidableEq, Repr

/-- A copy queue: its operations, oldest first, and QSTn (R55, R207). -/
structure CopyQueue where
  ops : List CopyOp
  stop : Bool
  reason : BitVec 4
  chunk : BitVec 28
  miss : BitVec 16
  deriving DecidableEq, Repr

/-- A block as an engine reads it: data and tag together (R206). -/
structure Block where
  data : BitVec 512
  tag : Tag
  deriving DecidableEq, Repr

/-- An MMA whose operands have been read and checked, not yet accumulated (R195, R206). -/
structure MmaOp where
  tile : Nat
  a : List Block
  b : List Block
  sa : Lane
  sb : Lane
  isat : Bool
  deriving DecidableEq, Repr

/-- A captured instruction: its address, its prefix and its word, and what they stand for; none, an illegal encoding (R218). -/
structure Captured where
  pc : Word
  pfx : Option Pfx
  insn : BitVec 32
  instr : Option Instr
  deriving DecidableEq, Repr

/-- A register of the write footprint of a REPX: its number, whether it is a vector register, and the iteration and position that
write it first and last (R219, R70). -/
structure Footprint where
  vector : Bool
  reg : Nat
  first : Nat × Nat
  last : Nat × Nat
  deriving DecidableEq, Repr

/-- The repetition buffer and sequencer (R55, R218 to R222). -/
structure Rep where
  /-- REPST.STATE. -/
  state : BitVec 2
  cap : List Captured
  /-- n of the latest REPB. -/
  n : Nat
  base : Nat
  size : Nat
  stag : Nat
  /-- The iterations of the latest REPX. -/
  count : Nat
  /-- The iteration and position that issue next. -/
  iter : Nat
  pos : Nat
  footprint : List Footprint
  /-- FCSR at the latest REPX: the rounding mode of the captured instructions, which stand before whatever follows it (R53, R220). -/
  fcsr : BitVec 3
  /-- The instruction that follows the latest REPX: the captured instructions stand just before it (R220). -/
  after : Word
  deriving DecidableEq, Repr

/-- A message for another package in the Erg send buffer (R426). -/
structure RemoteMsg where
  pkg : Nat
  dst : Nat
  ch : Nat
  bytes : List Byte
  /-- Sent, and not yet answered. -/
  sent : Bool
  /-- When it may be sent: after a retry, 1 µs later. -/
  due : Word
  deriving DecidableEq, Repr

/-- One Pliuman core. -/
structure Core where
  -- registers (R47, R48)
  sregs : Vector Word 32
  sfull : BitVec 32
  vregs : Vector VReg 32
  vfull : BitVec 32
  masks : Vector Mask 8
  flags : FlagSets
  tiles : Vector Tile 8
  pc : Word
  rpc : Word
  -- matrix configuration (R192) and code tables (R18)
  tf : Vector (BitVec 2) 8
  isat : Bool
  sa : Lane
  sb : Lane
  c8 : Vector Lane 256
  c4 : Vector Lane 16
  -- control registers (R54, R55)
  lidx : Word
  clsLat : Bool
  clsOrigin : BitVec 3
  clsFill : Bool
  sguard : BitVec 8
  fcsr : BitVec 3
  seed : Word
  /-- CREG bits 33:0. -/
  creg : BitVec 34
  /-- CRSC fields SCALE, NF, CTX and VALID. -/
  crscScale : BitVec 8
  crscNf : Bool
  crscCtx : BitVec 4
  crscValid : Bool
  /-- REGST.ABORTS and REGST.SURR. -/
  aborts : BitVec 16
  surr : BitVec 16
  ydl : Word
  mfl : BitVec 4
  /-- WNOTE.HIT and WNOTE.FF. -/
  wnote : BitVec 5
  /-- CVPOS.POS and CVPOS.SIZE. -/
  cvPos : Nat
  cvSize : Nat
  optH : Word
  trEn : Bool
  trSize : BitVec 4
  trObj : BitVec 23
  /-- TRPOS.OFF, ERR and LAPS. -/
  trOff : BitVec 27
  trErr : Bool
  trLaps : BitVec 32
  -- what the core does
  phase : Phase
  act : Option Activation
  /-- Activations started since reset. -/
  actNo : Nat
  inflight : List Inflight
  outbox : List OutEntry
  /-- The EXROUTE whose answer is outstanding: its destination, and the address after it (R384). -/
  exroute : Option (Nat × Word)
  -- caches and slots
  lines : List Line
  ilines : List ILine
  fenceStamp : Word
  fetchStamp : Word
  /-- The core has executed a FENCE, so its stamps hold. -/
  fenced : Bool
  fetchFenced : Bool
  slots : Vector Slot 8
  slotCount : Nat
  -- engines
  queues : Vector CopyQueue 4
  mops : List MmaOp
  rep : Rep
  -- channels and deque
  buffered : List Buffered
  dqTop : Nat
  dqBot : Nat
  /-- What hardware keeps with the record at each deque position. -/
  dqMeta : List (Nat × Carried)
  /-- Zero-firing pushes waiting for room (R349). -/
  pushBuf : List TaskRecord
  lrun : Nat
  rrLat : Option Nat
  rrBulk : Option Nat
  park : Vector (Option ParkEntry) 16
  parkRec : TaskRecord
  parkNo : BitVec 4
  /-- Fault packets not yet sent (R76). -/
  packets : List Packet
  /-- What the frozen core's instruction waits for, and the cause of its freeze (R73, R77). -/
  frozenWait : Option Wait
  frozenCause : BitVec 8
  /-- The freeze has reported the refused entry at the head of the outbox (R256, R348). -/
  frozenEntry : Bool
  -- caravan: the followers that have still to issue the leader's last instruction (R265)
  followers : List Nat
  /-- The address of that instruction, and the instruction, which the followers issue without fetching it (R264, R265). -/
  carPc : Word
  carIns : Option Captured
  -- debug and trace (R428 to R436)
  trBuf : List Byte
  trDate : Word
  /-- When the oldest record of the buffer was written (R431). -/
  trSince : Word
  trState : BitVec 2
  /-- Since when one cause has held issue, and its reason code (R429). -/
  trHeld : Option (Word × BitVec 8)
  smpint : BitVec 32
  smpFrom : Word
  bppc : Vector Word 2
  bptag : Vector (BitVec 10) 2
  dstatErr : BitVec 8
  stopReq : Bool
  /-- Vacate requested, and vacated (R355). -/
  vacReq : Bool
  vac : Bool
  -- Erg messages (R426)
  emdst : Word
  emsrc : Word
  emstat : BitVec 16
  emBuf : List RemoteMsg
  -- health
  /-- Declared lastingly faulty (R411), and fenced (R412). -/
  faulty : Bool
  fencedOff : Bool
  /-- The uncorrectable block on which this region has already aborted (R71). -/
  lastEcc : Option Nat
  -- the instruction in issue: its word, the prefix that governs it, the repetition iteration and position
  insn : BitVec 32
  pfx : Option Pfx
  repAt : Option (Nat × Nat)
  /-- It has made its commit and still waits to retire (R264, R323, R342, R343). -/
  committed : Bool
  /-- An abort waits until it has retired (R146, R235). -/
  noAbort : Bool
  /-- The supervisor command that takes effect once it has retired. -/
  closing : Option Closing
  /-- The activation has been restarted after its yield deadline, which vacates it no more (R352). -/
  spared : Bool
  /-- A follower of a broken caravan that has still to reach its boundary: it has a region and no activation (R266). -/
  orphan : Bool
  /-- What it read at issue, kept while it waits after its commit (R209, R343, R404). -/
  image : List Byte
  /-- Set once a TOK instruction with traps has made its changes: the packets that it still has to send (R232). -/
  trapsDue : Option (List Packet)
  deriving DecidableEq, Repr

/-! ### Clusters, mesas, package -/

/-- An open round of a crest context (R267). -/
structure Crest where
  isOpen : Bool
  /-- Bits 63:6 of the word that opened the round. -/
  param : Word
  count : Nat
  mag : Lane
  nan : Bool
  inf : Bool
  /-- The cores that have contributed. -/
  parties : List Nat
  deriving DecidableEq, Repr

/-- A 64-byte sector of an L2 slice (R302, R303). -/
structure Sector where
  phys : Nat
  data : BitVec 512
  tag : Tag
  /-- Bit k: byte k, and tag byte k, is held. A sector that a store's miss has allocated holds no byte yet. -/
  valid : BitVec 64
  tagValid : BitVec 5
  fill : Word
  epoch : Word
  deriving DecidableEq, Repr

/-- A cached translation: one page or one granule (R284). -/
structure Translation where
  id : BitVec 23
  gen : BitVec 16
  /-- Object offset and length of the page or granule. -/
  off : Nat
  len : Nat
  phys : Nat
  perm : BitVec 5
  cls : BitVec 2
  cairn : Word
  aliased : Bool
  /-- LEN of the object when it was read. -/
  limit : Nat
  deriving DecidableEq, Repr

/-- One cluster's shared state. -/
structure Cluster where
  l2 : List Sector
  tc : List Translation
  /-- Router cache: expert, its roster version and routable slots (R377). -/
  router : List (Nat × BitVec 8 × BitVec 16)
  crests : Vector Crest 16
  ywin : BitVec 16
  defsteal : BitVec 2
  rqrec : TaskRecord
  deriving DecidableEq, Repr

/-- A shoot-down as SDGO has latched it (R290): the object, the offset and the length of the range, and the lines that stayed dirty because
their home did not answer, as core and address (R291, R427). -/
structure Shot where
  id : Nat
  off : Nat
  len : Nat
  kept : List (Nat × Word)
  deriving DecidableEq, Repr

/-- The registers that each mesa command core and the host hold as their own (R289, R354, R380); index 4 is the host's. -/
structure Commander where
  sdobj : BitVec 23
  sdoff : BitVec 40
  sdlen : BitVec 41
  sdbusy : Bool
  sdcount : BitVec 32
  /-- The shoot-down in progress, or the last one. -/
  shot : Shot
  pvlaunch : BitVec 6
  pvcount : BitVec 12
  pvbusy : Bool
  pvvac : BitVec 12
  pvdone : BitVec 32
  /-- Cores still to be vacated, and cores chosen, by the request in progress. -/
  pvleft : List Nat
  pvchosen : Nat
  /-- The launch that the request in progress names, 64 once that launch has retired, and its cores that stay (R355). -/
  pvof : Nat
  pvrest : List Nat
  xtbusy : Bool
  xtname : BitVec 16
  xtcount : BitVec 32
  deriving DecidableEq, Repr

/-- A slot of a launch: the core that serves it and its cursor (R331, R333). -/
structure LaunchSlot where
  core : Nat
  next : Nat
  last : Int
  deriving DecidableEq, Repr

/-- An entry of the launch table (R328, R331, R438). -/
structure Launch where
  number : Nat
  /-- The 64 bytes of the admitted record. -/
  record : List Byte
  slots : List LaunchSlot
  /-- The number of members of its core set (R326). -/
  members : Nat
  /-- A SEED record not yet pushed. -/
  seed : Option (Nat × TaskRecord)
  deriving DecidableEq, Repr

/-- A launch queue: its records, oldest first, the stamp reads made for the head, and the breakpoint that holds it (R328, R329, R439). -/
structure LaunchQueue where
  records : List (List Byte)
  reads : Nat
  seen : BitVec 32
  held : Bool
  /-- When the first stamp read of the head was made (R329). -/
  first : Word
  /-- LBGO has let the head go: it is dispatched as soon as it can be (R328, R439). -/
  freed : Bool
  /-- The head has passed its checks, and is dispatched as soon as it can be and no breakpoint holds it (R328, R439). -/
  passed : Bool
  deriving DecidableEq, Repr

/-- A request that waits at a cairn's home: for a core, or for a message in a channel buffer (R58, R311). -/
structure Party where
  core : Nat
  /-- The channel and buffer slot, for a message. -/
  msg : Option (Nat × Nat)
  deriving DecidableEq, Repr

/-- A queued acquirer (R311). -/
structure Waiter where
  cairn : Word
  phys : Nat
  party : Party
  excl : Bool
  deriving DecidableEq, Repr

/-- The fields of an expert's entry that a write changes only once an XTINV that names the expert has completed (R381). -/
structure Rostered where
  v : Bool
  /-- MODE = 1: the slot is chosen by hash. -/
  hash : Bool
  owner : Nat
  jobj : Word
  plen : Nat
  deriving DecidableEq, Repr

/-- What an expert request asks of the entry's home (R383). -/
inductive ExpertAsk where
  /-- EXROUTE: key and count. -/
  | route (key : BitVec 32) (n : Word)
  deriving DecidableEq, Repr

/-- What is under way between agents: each is one later step. -/
inductive Transit where
  /-- A message: sender as its receiver sees it, sending core, destination, channel, bytes, implicit acquire, issuer (R255). -/
  | msg (sender src dst ch : Nat) (bytes : List Byte) (cairn : Option Word) (by_ : Issuer)
  /-- HOLD on its way (R257). -/
  | hold (src dst ch : Nat) (v : Bool)
  /-- READY on its way (R257). -/
  | ready (src dst ch : Nat) (v : Bool)
  /-- A record push (R341). -/
  | push (src dst : Nat) (rec : TaskRecord) (c : Carried)
  /-- A decrement (R347). -/
  | dec (src : Nat) (ea : Word) (phys : Nat) (n : Word) (by_ : Issuer)
  /-- A posted atomic (R151). -/
  | amo (src : Nat) (op : AmoOp) (bytes phys : Nat) (b : Word)
  /-- A refused message on its way back (R256). -/
  | msgRefused (src : Nat) (e : OutEntry)
  /-- A refused DEC on its way back (R348). -/
  | decRefused (src : Nat) (e : OutEntry)
  /-- An acquire request to the home (R311). -/
  | acquire (cairn : Word) (phys : Nat) (party : Party) (excl try_ : Bool)
  /-- The home asks the last releaser to surrender, for this request (R311). -/
  | surrender (cairn : Word) (phys : Nat) (releaser : Nat) (party : Party) (excl try_ : Bool)
  /-- The home's answer to a core: 0 granted, 1 busy, 2 the queue is full (R310, R311); the cairn's physical address. -/
  | grant (cairn : Word) (phys : Nat) (core : Nat) (status : BitVec 2) (epoch : Word)
  /-- The home's grant to a message (R58). -/
  | msgGrant (cairn : Word) (core ch slot : Nat) (epoch : Word)
  /-- A release told to the home: cairn, core, eager, local releases (R312). -/
  | release (cairn : Word) (phys core : Nat) (eager : Bool) (lrel : Word)
  /-- An aborted acquire's withdrawal (R310). -/
  | withdraw (cairn : Word) (phys core : Nat)
  /-- A contribution to a crest context (R269). -/
  | crest (core scope ctx : Nat) (w : Word) (mag : Lane) (nan inf : Bool)
  /-- A crest release on its way to a participant (R269). -/
  | crsc (core : Nat) (scope ctx : Nat) (scale : BitVec 8) (nf : Bool)
  /-- An expert request (R384). -/
  | expert (core : Nat) (name : BitVec 16) (ask : ExpertAsk)
  /-- An expert notice to its owner's channel: name, kind, slot, CVER, value, owner, channel, sender (R378). -/
  | notice (name : BitVec 16) (kind slot : Nat) (cver : BitVec 32) (v : Word) (dst ch sender : Nat)
  /-- The answer to an expert request. -/
  | expertAnswer (core : Nat) (v : Word)
  /-- An Erg flit carrying a remote message from a core of this package (R426). -/
  | flit (src : Nat) (m : RemoteMsg)
  deriving DecidableEq, Repr

/-- A debug right and its aperture page (R440). -/
structure Right where
  v : Bool
  perm : BitVec 4
  scope : BitVec 2
  gen : BitVec 16
  first : BitVec 12
  count : BitVec 12
  drqAddr : BitVec 36
  drqGen : Word
  drqData : Word
  res : BitVec 4
  done : BitVec 32
  /-- The operation asked for and not yet performed: 1 load, 2 store. -/
  busy : Option (BitVec 2)
  deriving DecidableEq, Repr

/-- A launch breakpoint (R439). -/
structure LaunchBreak where
  lbp : Word
  lbq : BitVec 18
  deriving DecidableEq, Repr

/-- A package that answers on no plane (R420, R427): the accesses to it dropped since, and the cycle in which it became unreachable. -/
structure Lost where
  drops : BitVec 32
  since : Word
  deriving DecidableEq, Repr

/-- The package's own registers and queues. -/
structure Package where
  cyc : Word
  crests : Vector Crest 16
  mesaCrests : Vector (Vector Crest 16) 4
  otbase : BitVec 56
  xtbase : BitVec 56
  /-- SKIPF.STEP and SKIPF.FLAG (R401). -/
  skipStep : BitVec 32
  skipFlag : Bool
  -- governor (R408)
  pgEn : Bool
  pgFdiv : BitVec 8
  pgUp : BitVec 16
  pgDn : BitVec 16
  pgBal : BitVec 16
  /-- Package power in milliwatts: a period's slew is a number of them (R409). -/
  pgPower : Nat
  pgDemand : BitVec 16
  pgMode : BitVec 2
  /-- Package energy since reset in nanojoules: a milliwatt over a microsecond is one (R408). -/
  pgEne : Nat
  /-- The cycle in which the governor's latest period ended (R409). -/
  pgFrom : Word
  -- telemetry (R410) and errors (R411)
  esnapE : Word
  esnapT : BitVec 48
  esnapN : BitVec 32
  portLocked : Bool
  errwin : Word
  errthr : Word
  /-- Corrected errors counted in the window: unit kind, number, count; and the window's first cycle (R411). -/
  errCounts : List (Nat × Nat × Nat)
  errFrom : Word
  /-- The units declared lastingly faulty (R411). -/
  declared : List (Nat × Nat)
  -- launches (R328 to R333, R439)
  launchQueues : Vector LaunchQueue 16
  /-- The launch table, oldest dispatch first. -/
  launches : List Launch
  lbreaks : Vector LaunchBreak 4
  -- host registers (R416)
  hqbase : Word
  hqsize : BitVec 5
  hqhead : BitVec 32
  hqtail : BitVec 32
  hqen : Bool
  hwbase : Word
  bfpage : BitVec 28
  bfbias : Bool
  bfbusy : Bool
  /-- The page and the bias of the flip in progress (R422). -/
  bfat : BitVec 28
  bfto : Bool
  bfcount : BitVec 32
  hmstat : BitVec 32
  pkfrz : Bool
  bootReady : Bool
  bootStage : BitVec 3
  bootErr : BitVec 8
  /-- An input: what the boot ROM finds of the firmware image, 0 that it verifies, 1 to 3 the reasons of BOOTST.ERR (R413, R416). -/
  bootImage : BitVec 2
  /-- MSI-X vectors raised and not yet taken by the host (R415). -/
  msix : BitVec 4
  /-- The host message buffer: message word and bytes (R417). -/
  hostMsgs : List (Word × List Byte)
  /-- The package service buffer: channel and body (R420). -/
  services : List (Nat × List Byte)
  /-- HDM pages of host bias (R421). -/
  hostBias : List Nat
  /-- Host reads held by a bias flip (R422). -/
  heldReads : List Word
  /-- What the latest host reads through CXL.mem returned: the addresses and the sectors, in the order served. -/
  hostData : List (Word × List Byte)
  linkUp : Bool
  linkDrops : BitVec 32
  linkDownCyc : Word
  -- Erg (R424 to R427)
  pkgid : BitVec 10
  ergPorts : BitVec 16
  /-- Ports fenced for a lasting fault (R411). -/
  ergFenced : BitVec 16
  /-- Unreachable packages by number (R427). -/
  unreachable : List (Nat × Lost)
  /-- Flits sent and not acknowledged, oldest first: port and remote message (R427). -/
  replay : List (Nat × Nat × RemoteMsg)
  -- debug rights (R440)
  rights : List (Nat × Right)
  /-- The attestation report buffer (R412, R413). -/
  report : List Byte
  nonce : List Byte
  deriving DecidableEq, Repr

/-- A store to a register, or a command, that waits until it can be performed. -/
inductive Deferral where
  /-- The host's store to a register (R275). -/
  | register (addr v : Word)
  /-- Host writes behind one that waits: a host message (R417), a launch record (R328), SKIPF (R401), ESNAP (R410), BFGO (R422). -/
  | hmsg (v : Word) (data : List Byte)
  | launch (q : Nat) (record : List Byte)
  | skipf (v : Word)
  | esnap (v : Word)
  | bfgo (v : Word)
  /-- A push through RQGO, at a full deque (R288). -/
  | rqgo (cluster : Nat) (v : Word)
  /-- A store to SDGO (R289), PVGO (R354) or XTINV (R380) of a unit that is busy. -/
  | sdgo (unit : Nat) (v : Word)
  | pvgo (unit : Nat) (v : Word)
  | xtinv (unit : Nat) (v : Word)
  /-- RESTART or KILL of a core while the answer of its EXROUTE is outstanding (R384). -/
  | restart (core : Nat)
  | kill (core : Nat)
  deriving DecidableEq, Repr

/-- What moves next: an event of the opcode table, a core's next instruction, or a step that the table has no row for. -/
inductive Move where
  /-- One step of another agent; an encoded instruction here is passed over. -/
  | event (i : Instr)
  /-- The core with this identifier issues. -/
  | issue (core : Nat)
  /-- The n-th store or command that waits is performed, if it need wait no longer. -/
  | deferred (n : Nat)
  /-- A full set of a home's presence directory recalls the L2 line that holds a physical address (R305). -/
  | recall (phys : Nat)
  /-- A message from a core of another package arrives over Erg: package, sender, destination core, channel, bytes (R426). -/
  | inbound (pkg sender dst ch : Nat) (bytes : List Byte)
  /-- A package that was unreachable answers again (R427). -/
  | answers (pkg : Nat)
  /-- A unit, of a kind of R420 and a number, corrects an error (R300, R411). -/
  | corrected (kind n : Nat)
  deriving DecidableEq, Repr

/-- The whole package. -/
structure State where
  /-- The core whose turn it is, and its identifier (R4). -/
  core : Core
  cid : Nat
  /-- Other cores, by ascending identifier; one not listed is as at reset. -/
  others : List (Nat × Core)
  /-- Bytes by physical address (R279), in canonical form; host memory is `host`. -/
  mem : List Host.Cell
  /-- Tags by physical block address, in canonical form. -/
  tags : List (Nat × Tag)
  /-- Bytes of host memory by host address. -/
  host : List Host.Cell
  /-- Blocks that hold an uncorrectable error (R301). -/
  ecc : List Nat
  /-- Errors that units have corrected and not yet counted: unit kind of R420 and number (R300, R411). -/
  corrections : List (Nat × Nat)
  /-- Clusters that differ from reset, by ascending number mesa × 48 + cluster. -/
  clusters : List (Nat × Cluster)
  commanders : Vector Commander 5
  pkg : Package
  /-- The fields of R381 in force, by expert name; an expert not listed is invalid. -/
  rostered : List (Nat × Rostered)
  /-- The monitors registered at the homes, at most one a core (R324). -/
  monitors : List Monitor
  /-- Acquirers queued at cairn homes, in order of arrival (R311). -/
  waiters : List Waiter
  /-- Packets under way, in order of departure. -/
  net : List Transit
  /-- Stores to registers, and commands, that wait until they can be performed (R288, R289, R354, R380, R384, R416). -/
  deferred : List Deferral
  /-- The model's own: what moves next, in order; empty, the model chooses. -/
  agenda : List Move
  /-- The model's own: free values drawn so far. -/
  nfree : Nat
  /-- The model's own: the current core's issue is held until some event changes the package. -/
  held : Bool
  /-- The model's own: a period of the governor has ended in this move, so that another move comes before the next. -/
  governed : Bool
  deriving DecidableEq, Repr

/-! ### Outcomes that are no next state -/

/-- Why the machine stops: nothing in the manual stops the whole machine, so only the model's own limit stands here. -/
inductive Fault where
  /-- Raised by no meaning; kept so that the type is inhabited. Safe. -/
  | none
  deriving DecidableEq, Repr

/-- Why an instruction has no meaning in this model. -/
inductive Refusal where
  /-- Raised by an arm of `exec` whose instruction has no meaning yet. Safe: the model stops where the machine goes on. -/
  | notModelled (mnemonic : String)
  deriving DecidableEq, Repr

/-! ### Reset -/

/-- +1 as an F32 pattern: the reset value of SA and SB (R192). -/
def oneF32 : Lane := 0x3F80_0000#32

/-- No flag set (R36). -/
def FlagSets.reset : FlagSets := ⟨0, 0, 0, 0, 0⟩

/-- A free binding slot (R308). -/
def Slot.free : Slot :=
  { valid := false, cairn := 0, hold := .none, loc := false, ret := false, wait := false, epoch := 0, lrel := 0,
    sticky := false, order := 0 }

/-- An empty copy queue (R55). -/
def CopyQueue.reset : CopyQueue := ⟨[], false, 0, 0, 0⟩

/-- The repetition buffer at reset (R55). -/
def Rep.reset : Rep := ⟨0, [], 0, 0, 0, 0, 0, 0, 0, [], 0, 0⟩

/-- A core at reset: every register at the value of R47, R54 and R192, nothing queued, idle (R336). -/
def Core.reset : Core where
  sregs := Vector.replicate 32 0
  sfull := BitVec.allOnes 32
  vregs := Vector.replicate 32 (Vector.replicate 128 0)
  vfull := BitVec.allOnes 32
  masks := #v[BitVec.allOnes 128, 0, 0, 0, 0, 0, 0, 0]
  flags := FlagSets.reset
  tiles := Vector.replicate 8 (Vector.replicate 1024 0)
  pc := 0
  rpc := 0
  tf := Vector.replicate 8 0
  isat := false
  sa := oneF32
  sb := oneF32
  c8 := Vector.replicate 256 0
  c4 := Vector.replicate 16 0
  lidx := 0
  clsLat := false
  clsOrigin := 0
  clsFill := false
  sguard := 64
  fcsr := 0
  seed := 0
  creg := 0
  crscScale := 0
  crscNf := false
  crscCtx := 0
  crscValid := false
  aborts := 0
  surr := 0
  ydl := 0
  mfl := 0
  wnote := 0
  cvPos := 0
  cvSize := 0
  optH := 0
  trEn := false
  trSize := 0
  trObj := 0
  trOff := 0
  trErr := false
  trLaps := 0
  phase := .idle
  act := none
  actNo := 0
  inflight := []
  outbox := []
  exroute := none
  lines := []
  ilines := []
  fenceStamp := 0
  fetchStamp := 0
  fenced := false
  fetchFenced := false
  slots := Vector.replicate 8 Slot.free
  slotCount := 0
  queues := Vector.replicate 4 CopyQueue.reset
  mops := []
  rep := Rep.reset
  buffered := []
  dqTop := 0
  dqBot := 0
  dqMeta := []
  pushBuf := []
  lrun := 0
  rrLat := none
  rrBulk := none
  park := Vector.replicate 16 none
  parkRec := ⟨0, 0, 0, 0⟩
  parkNo := 0
  packets := []
  frozenWait := none
  frozenCause := 0
  frozenEntry := false
  followers := []
  carPc := 0
  carIns := none
  trBuf := []
  trDate := 0
  trSince := 0
  trState := 0
  trHeld := none
  smpint := 0
  smpFrom := 0
  bppc := Vector.replicate 2 0
  bptag := Vector.replicate 2 0
  dstatErr := 0
  stopReq := false
  vacReq := false
  vac := false
  emdst := 0
  emsrc := 0
  emstat := 0
  emBuf := []
  faulty := false
  fencedOff := false
  lastEcc := none
  insn := 0
  pfx := none
  repAt := none
  committed := false
  noAbort := false
  closing := none
  spared := false
  orphan := false
  image := []
  trapsDue := none

/-- An idle crest context (R267). -/
def Crest.idle : Crest := ⟨false, 0, 0, 0, false, false, []⟩

/-- A cluster at reset (R346). -/
def Cluster.reset : Cluster where
  l2 := []
  tc := []
  router := []
  crests := Vector.replicate 16 Crest.idle
  ywin := 2048
  defsteal := 1
  rqrec := ⟨0, 0, 0, 0⟩

/-- A commander's registers at reset (R289, R354, R380). -/
def Commander.reset : Commander where
  sdobj := 0
  sdoff := 0
  sdlen := 0
  sdbusy := false
  sdcount := 0
  shot := ⟨0, 0, 0, []⟩
  pvlaunch := 0
  pvcount := 0
  pvbusy := false
  pvvac := 0
  pvdone := 0
  pvleft := []
  pvchosen := 0
  pvof := 0
  pvrest := []
  xtbusy := false
  xtname := 0
  xtcount := 0

/-- The package's registers at reset (R401, R408, R410, R411, R416, R424, R439). No link is trained by anything that the model has: the
host link and the 16 Erg ports are up from reset. DESIGN CHOICE (log 4): the rules give them no reset state. -/
def Package.reset : Package where
  cyc := 0
  crests := Vector.replicate 16 Crest.idle
  mesaCrests := Vector.replicate 4 (Vector.replicate 16 Crest.idle)
  otbase := 0
  xtbase := 0
  skipStep := 0
  skipFlag := false
  pgEn := false
  pgFdiv := 8
  pgUp := 50
  pgDn := 50
  pgBal := 0
  pgPower := 0
  pgDemand := 0
  pgMode := 0
  pgEne := 0
  pgFrom := 0
  esnapE := 0
  esnapT := 0
  esnapN := 0
  portLocked := false
  errwin := 1000
  errthr := 64
  errCounts := []
  errFrom := 0
  declared := []
  launchQueues := Vector.replicate 16 ⟨[], 0, 0, false, 0, false, false⟩
  launches := []
  lbreaks := Vector.replicate 4 ⟨0, 0⟩
  hqbase := 0
  hqsize := 6
  hqhead := 0
  hqtail := 0
  hqen := false
  hwbase := 0
  bfpage := 0
  bfbias := false
  bfbusy := false
  bfat := 0
  bfto := false
  bfcount := 0
  hmstat := 0
  pkfrz := false
  bootReady := false
  bootStage := 0
  bootErr := 0
  bootImage := 0
  msix := 0
  hostMsgs := []
  services := []
  hostBias := []
  heldReads := []
  hostData := []
  linkUp := true
  linkDrops := 0
  linkDownCyc := 0
  pkgid := 0
  ergPorts := BitVec.allOnes 16
  ergFenced := 0
  unreachable := []
  replay := []
  rights := []
  report := []
  nonce := []

/-- The package right after reset: nothing listed in memory, every core idle, nothing under way. -/
def State.reset : State where
  core := Core.reset
  cid := 0
  others := []
  mem := []
  tags := []
  host := []
  ecc := []
  corrections := []
  clusters := []
  commanders := Vector.replicate 5 Commander.reset
  pkg := Package.reset
  rostered := []
  monitors := []
  waiters := []
  net := []
  deferred := []
  agenda := []
  nfree := 0
  held := false
  governed := false

end Sys2Proof.Machine
end

