-- ==== Sys2Proof/Machine/Phys.lean ====
section
/-!
DEFINITION. Memory by physical address (R279, R299): the canonical lists of bytes and tags, blocks, little-endian values, the
writes that trigger monitors (R324), and the physical addresses of the scratchpads.
-/

namespace Sys2Proof.Machine

/-! ### Canonical lists -/

/-- What a byte of memory that nothing has written reads as. DESIGN CHOICE (log 4). -/
def unwritten : Byte := 0

/-- The byte at an address. -/
def cellGet : List Host.Cell → Nat → Byte
  | [], _ => unwritten
  | (k, v) :: rest, a => if k = a then v else if a < k then unwritten else cellGet rest a

/-- The list with the byte at an address replaced, in canonical form. -/
def cellSet : List Host.Cell → Nat → Byte → List Host.Cell
  | [], a, v => if v = unwritten then [] else [(a, v)]
  | (k, w) :: rest, a, v =>
    if a < k then (if v = unwritten then (k, w) :: rest else (a, v) :: (k, w) :: rest)
    else if k = a then (if v = unwritten then rest else (a, v) :: rest)
    else (k, w) :: cellSet rest a v

/-- The canonical form from a lower bound on: addresses strictly rising and at least `lo`, no entry that reads as an unlisted
address does. -/
def cellsFrom (lo : Nat) : List Host.Cell → Bool
  | [] => true
  | (k, v) :: rest => decide (lo ≤ k) && decide (v ≠ unwritten) && cellsFrom (k + 1) rest

/-- The canonical form of a memory. -/
def Memory.wf (m : List Host.Cell) : Bool := cellsFrom 0 m

/-- The tag of a block that nothing has tagged: RAW (R23). -/
def tagGet : List (Nat × Tag) → Nat → Tag
  | [], _ => 0
  | (k, v) :: rest, a => if k = a then v else if a < k then 0 else tagGet rest a

/-- The list with one block's tag replaced, in canonical form. -/
def tagSet : List (Nat × Tag) → Nat → Tag → List (Nat × Tag)
  | [], a, v => if v = 0 then [] else [(a, v)]
  | (k, w) :: rest, a, v =>
    if a < k then (if v = 0 then (k, w) :: rest else (a, v) :: (k, w) :: rest)
    else if k = a then (if v = 0 then rest else (a, v) :: rest)
    else (k, w) :: tagSet rest a v

/-- The canonical form of the tags. -/
def tagsFrom (lo : Nat) : List (Nat × Tag) → Bool
  | [] => true
  | (k, v) :: rest => decide (lo ≤ k) && decide (v ≠ 0) && tagsFrom (k + 1) rest

/-! ### Physical addresses (R279) -/

/-- The kind field: 0 DRAM, 1 SRAM, 2 control, 3 host memory. -/
def kindOf (p : Nat) : Nat := p / 2 ^ 40 % 16

/-- The package field. -/
def packageOf (p : Nat) : Nat := p / 2 ^ 46 % 2 ^ 10

/-- GlobalCore of R281: the core whose channel or scratchpad the address names. -/
def globalCore (p : Nat) : Nat := p / 2 ^ 38 % 4 * 768 + p / 2 ^ 28 % 2 ^ 10

/-- PhysAddr of R281: package, kind, core and offset as an address. -/
def physAddr (pkg kind core off : Nat) : Nat :=
  pkg * 2 ^ 46 + kind * 2 ^ 40 + core / 768 * 2 ^ 38 + core % 768 * 2 ^ 28 + off

/-- A physical address as a field of memory gives it: its reserved bits 45:44 are ignored (R279). -/
def physField (w : Word) : Nat := ((w.extractLsb' 46 10).toNat) * 2 ^ 46 + (w.extractLsb' 0 44).toNat

/-- The home of a physical address: its channel or memory; all host memory has the host as its home (R423). -/
def homeOf (p : Nat) : Nat := if kindOf p = 3 then p / 2 ^ 40 * 2 ^ 12 else p / 2 ^ 28

/-- The block that holds a byte. -/
def blockOf (p : Nat) : Nat := p / 64 * 64

/-- A byte of a core's scratchpad (R61). -/
def scratch (s : State) (core off : Nat) : Nat := physAddr s.pkg.pkgid.toNat 1 core off

/-- A byte of a mesa scratchpad (R274). The manual gives it no physical address; the model gives it the core field 1,023 of its
mesa, which no core has. DESIGN CHOICE (log 5). -/
def mesaScratch (s : State) (mesa off : Nat) : Nat :=
  s.pkg.pkgid.toNat * 2 ^ 46 + 2 ^ 40 + mesa * 2 ^ 38 + 1023 * 2 ^ 28 + off

/-! ### Reading and writing at the home -/

/-- The host address of a byte of the host window (R423). -/
def hostAddr (s : State) (p : Nat) : Nat := (s.pkg.hwbase.toNat + p % 2 ^ 40) % 2 ^ 64

/-- The byte at a physical address. -/
def physGet (s : State) (p : Nat) : Byte :=
  if kindOf p = 3 then cellGet s.host (hostAddr s p) else cellGet s.mem p

/-- The monitors, those armed on the block of a written byte triggered (R324). -/
def trigger (ms : List Monitor) (p : Nat) : List Monitor :=
  ms.map fun m => if m.block = blockOf p then { m with hit := true } else m

/-- One byte written at its home. -/
def physSet (s : State) (p : Nat) (v : Byte) : State :=
  if kindOf p = 3 then { s with host := cellSet s.host (hostAddr s p) v, monitors := trigger s.monitors p }
  else { s with mem := cellSet s.mem p v, monitors := trigger s.monitors p }

/-- `n` bytes from an address up, the lowest first. -/
def physBytes (s : State) (p n : Nat) : List Byte := (List.range n).map fun k => physGet s (p + k)

/-- Bytes written from an address up. -/
def physPut (s : State) (p : Nat) : List Byte → State
  | [] => s
  | b :: bs => physPut (physSet s p b) (p + 1) bs

/-- A little-endian value from its bytes. -/
def leValue : List Byte → Nat
  | [] => 0
  | b :: bs => b.toNat + 256 * leValue bs

/-- The `n` little-endian bytes of a value. -/
def leBytes : Nat → Nat → List Byte
  | 0, _ => []
  | n + 1, v => BitVec.ofNat 8 v :: leBytes n (v / 256)

/-- The little-endian value of `n` bytes. -/
def physNat (s : State) (p n : Nat) : Nat := leValue (physBytes s p n)

/-- A little-endian doubleword. -/
def physWord (s : State) (p : Nat) : Word := BitVec.ofNat 64 (physNat s p 8)

/-- `n` bytes of a value written little-endian. -/
def physPutNat (s : State) (p n v : Nat) : State := physPut s p (leBytes n v)

/-- The tag of the block that holds an address. -/
def physTag (s : State) (p : Nat) : Tag := tagGet s.tags (blockOf p)

/-- A block with its tag. -/
def physBlock (s : State) (p : Nat) : Block :=
  ⟨BitVec.ofNat 512 (physNat s (blockOf p) 64), physTag s p⟩

/-- The bits of a tag that a 5-bit tag-byte mask covers. -/
def tagMask (m : BitVec 5) : Tag :=
  (List.range 5).foldl (fun acc k => if m.getLsbD k then acc ||| (0xFF#40 <<< (8 * k)) else acc) 0

/-- A tag with the tag bytes of a mask taken from another (R182). -/
def mergeTag (old new : Tag) (m : BitVec 5) : Tag := (old &&& ~~~ tagMask m) ||| (new &&& tagMask m)

/-- The tag of a block replaced under its tag-byte mask. -/
def physSetTag (s : State) (p : Nat) (t : Tag) (m : BitVec 5) : State :=
  if m = 0 then s
  else { s with tags := tagSet s.tags (blockOf p) (mergeTag (physTag s p) t m), monitors := trigger s.monitors p }

/-- Byte k of a block. -/
def byteOf (d : BitVec 512) (k : Nat) : Byte := d.extractLsb' (8 * k) 8

/-- A block with byte k replaced. -/
def setByteOf (d : BitVec 512) (k : Nat) (v : Byte) : BitVec 512 :=
  (d &&& ~~~ (0xFF#512 <<< (8 * k))) ||| (v.setWidth 512 <<< (8 * k))

/-- The bytes of a mask, spread over a block. -/
def spread (m : BitVec 64) : BitVec 512 :=
  (List.range 64).foldl (fun acc k => if m.getLsbD k then acc ||| (0xFF#512 <<< (8 * k)) else acc) 0

/-- A block with the bytes of a mask taken from another. -/
def mergeBlock (old new : BitVec 512) (m : BitVec 64) : BitVec 512 := (old &&& ~~~ spread m) ||| (new &&& spread m)

/-- Whether a write under these masks rewrites the whole block, so that it clears an uncorrectable error (R301). What the host refuses
is no error of a block, and no write clears it (R423). -/
def rewritesWhole (blk : Nat) (m : BitVec 64) (tm : BitVec 5) : Bool :=
  kindOf blk ≠ 3 && m = BitVec.allOnes 64 && tm = BitVec.allOnes 5

/-- A block is the header of an entry of the expert table, once firmware has set the table up (R370, R371, R381). DEDUCED (log 34). -/
def isHeader (s : State) (blk : Nat) : Bool :=
  let base := s.pkg.xtbase.toNat
  s.pkg.bootReady && kindOf blk = 0 && base ≤ blk && blk < base + 2 ^ 26 && (blk - base) % 1024 = 0

/-- The bits of a header that are fields; the reserved others read zero (R371). -/
def headerFields : BitVec 512 :=
  0#128 ++ 0x0000_0000_FFFF_FFFF#64 ++ 0x7FFF_FFFF_FFFF_FFFF#64 ++ 0x0000_FFFF_FFFF_FFFF#64 ++ BitVec.allOnes 64 ++
    0x0000_0000_FFFF_FFFF#64 ++ 0x0000_FF3F_0FFF_0003#64

/-- Data for a block, as the block holds it: a header takes no reserved bit (R371). -/
def asHeld (s : State) (blk : Nat) (data : BitVec 512) : BitVec 512 := if isHeader s blk then data &&& headerFields else data

/-- A value for the bytes from an address up, within a block, as the block holds it. -/
def asHeldAt (s : State) (p v : Nat) : Nat :=
  if isHeader s (blockOf p) then Nat.land v (headerFields >>> (8 * (p % 64))).toNat else v

/-- A merge at a block's home: the bytes and tag bytes of the masks, and nothing else (R63, R182). A block that holds an
uncorrectable error takes only a whole rewrite (R301). -/
def homeMerge (s : State) (blk : Nat) (data : BitVec 512) (m : BitVec 64) (t : Tag) (tm : BitVec 5) : State :=
  if s.ecc.contains blk then
    if rewritesWhole blk m tm then
      physSetTag (physPut { s with ecc := s.ecc.filter (· ≠ blk) } blk ((List.range 64).map (byteOf (asHeld s blk data)))) blk t tm
    else s
  else
    physSetTag ((List.range 64).foldl (fun u k => if m.getLsbD k then physSet u (blk + k) (byteOf (asHeld s blk data) k) else u) s) blk t tm

/-- Bytes off up to off + n − 1 of a block, as a mask. -/
def byteMask (off n : Nat) : BitVec 64 := BitVec.ofNat 64 ((2 ^ n - 1) * 2 ^ off)

/-- Bytes of a block. -/
def blockBytes (d : BitVec 512) (off n : Nat) : List Byte := (List.range n).map fun k => byteOf d (off + k)

/-- Bytes as part of a block, the first at offset off. -/
def placed (off : Nat) (bs : List Byte) : BitVec 512 := BitVec.ofNat 512 (leValue bs * 2 ^ (8 * off))

/-- Whether the home of a physical address answers (R427): its package reachable, and the host link up for host memory, whose window is this
package's whatever package the address names (R279, R423). DESIGN CHOICE (log 44). -/
def reachable (s : State) (phys : Nat) : Bool :=
  if kindOf phys = 3 then s.pkg.linkUp
  else packageOf phys = s.pkg.pkgid.toNat || s.pkg.unreachable.all fun u => u.1 ≠ packageOf phys

/-- Whether a merge at the block's home is refused (R301). A home that does not answer refuses nothing (R427). -/
def mergeRefused (s : State) (blk : Nat) (m : BitVec 64) (tm : BitVec 5) : Bool :=
  reachable s blk && s.ecc.contains blk && !rewritesWhole blk m tm

/-! ### Cores, clusters and mesas by number -/

/-- The value stored under a number, if listed. -/
def assocGet {α : Type} : List (Nat × α) → Nat → Option α
  | [], _ => none
  | (k, v) :: rest, a => if k = a then some v else assocGet rest a

/-- The list with the value under a number replaced, by rising number. -/
def assocSet {α : Type} : List (Nat × α) → Nat → α → List (Nat × α)
  | [], a, v => [(a, v)]
  | (k, w) :: rest, a, v =>
    if a < k then (a, v) :: (k, w) :: rest else if k = a then (a, v) :: rest else (k, w) :: assocSet rest a v

/-- The list without the value under a number. -/
def assocDrop {α : Type} (l : List (Nat × α)) (a : Nat) : List (Nat × α) := l.filter (·.1 ≠ a)

/-- A core of the package by its identifier (R4). -/
def State.coreAt (s : State) (k : Nat) : Core := if k = s.cid then s.core else (assocGet s.others k).getD Core.reset

/-- The state with one core replaced. -/
def State.putCore (s : State) (k : Nat) (c : Core) : State :=
  if k = s.cid then { s with core := c } else { s with others := assocSet s.others k c }

/-- The state with one core changed. -/
def State.modCore (s : State) (k : Nat) (f : Core → Core) : State := s.putCore k (f (s.coreAt k))

/-- The state with another core as the one whose turn it is. -/
def State.focus (s : State) (k : Nat) : State :=
  if k = s.cid then s
  else { s with core := s.coreAt k, cid := k, others := assocSet (assocDrop s.others k) s.cid s.core }

/-- The cores that are listed: the one whose turn it is, and those that differ from reset. -/
def State.listed (s : State) : List Nat := s.cid :: s.others.map (·.1)

/-- A core's number in its cluster, its cluster of the package, its mesa (R4). -/
def memberOf (core : Nat) : Nat := core % 16
def clusterOf (core : Nat) : Nat := core / 16
def mesaOf (core : Nat) : Nat := core / 768

/-- The role of cluster supervisor (R250). -/
def isSupervisor (core : Nat) : Bool := memberOf core = 15

/-- The mesa command core: core 15 of cluster 0 of its mesa (R250). -/
def isCommand (core : Nat) : Bool := core % 768 = 15

/-- The command core of a mesa. -/
def commandCore (mesa : Nat) : Nat := mesa * 768 + 15

/-- The supervisor of a core's cluster. -/
def supervisorOf (core : Nat) : Nat := clusterOf core * 16 + 15

/-- A cluster by its number, mesa × 48 + cluster. -/
def State.clusterAt (s : State) (g : Nat) : Cluster := (assocGet s.clusters g).getD Cluster.reset

/-- The state with one cluster changed. -/
def State.modCluster (s : State) (g : Nat) (f : Cluster → Cluster) : State :=
  { s with clusters := assocSet s.clusters g (f (s.clusterAt g)) }

/-- The state with the package registers changed. -/
def State.modPkg (s : State) (f : Package → Package) : State := { s with pkg := f s.pkg }

/-- A store or command that waits until it can be performed, behind those that wait already. -/
def State.defer (s : State) (i : Deferral) : State := { s with deferred := s.deferred ++ [i] }

/-- Posted writes of the host, which the device performs in their order (R417). -/
def Deferral.isHost (x : Deferral) : Bool :=
  match x with
  | .register _ _ | .hmsg _ _ | .launch _ _ | .bfgo _ | .skipf _ | .esnap _ => true
  | _ => false

/-- A write of the host, performed in its turn: one behind a write that waits, waits too. -/
def hostInTurn (x : Deferral) (f : State → State) (s : State) : State := if s.deferred.any Deferral.isHost then s.defer x else f s

/-- A free value's number, and the state that has drawn it. -/
def State.draw (s : State) : Nat × State := (s.nfree, { s with nfree := s.nfree + 1 })

end Sys2Proof.Machine
end

