-- ==== Sys2Proof/Machine/Translate.lean ====
section
/-!
DEFINITION. The object table, extents and the walk (R276 to R285), and the translation cache (R284).
-/

namespace Sys2Proof.Machine

/-- What an access to object memory asks of its object (R282). -/
inductive Need where
  | read | write | exec | atomic | update
  /-- A range that OPTW's descriptor names and the instruction neither reads nor writes: no permission (R404). -/
  | named
  deriving DecidableEq, Repr

/-- PERM grants what an access needs (R277). -/
def Need.grantedBy (need : Need) (perm : BitVec 5) : Bool :=
  match need with
  | .read => perm.getLsbD 0
  | .write => perm.getLsbD 1
  | .exec => perm.getLsbD 2
  | .atomic => perm.getLsbD 3
  | .update => perm.getLsbD 4
  | .named => true

/-- Why a translation fails (R282): cause 0x06 with its DET1 reason, 0x04, 0x05, or a non-resident extent. -/
inductive XFail where
  | invalid (reason : Nat)
  | bounds
  | permission
  | nonResident
  deriving DecidableEq, Repr

/-- An object address's identifier and offset (R12). -/
def objId (a : Word) : Nat := (a.extractLsb' 40 23).toNat
def objOff (a : Word) : Nat := (a.extractLsb' 0 40).toNat

/-- The address of byte `off` of object `id` (R132). -/
def objAddr (id off : Nat) : Word := BitVec.ofNat 64 (id % 2 ^ 23 * 2 ^ 40 + off % 2 ^ 40)

/-- The block of an address. -/
def blockAddr (a : Word) : Word := a &&& ~~~ 63#64

/-- An object table entry (R277). -/
structure Entry where
  v : Bool
  perm : BitVec 5
  cls : BitVec 2
  aliased : Bool
  pin : Bool
  xrep : Bool
  gen : BitVec 16
  extcnt : Nat
  len : Nat
  extptr : Nat
  cairn : Word
  xname : BitVec 16
  deriving DecidableEq, Repr

/-- The physical address of an entry (R276). -/
def entryAddr (s : State) (id : Nat) : Nat := s.pkg.otbase.toNat + 64 * id

/-- The entry of an object, read as one block. -/
def readEntry (s : State) (id : Nat) : Entry :=
  let p := entryAddr s id
  let w0 := physWord s p
  { v := w0.getLsbD 0
    perm := w0.extractLsb' 1 5
    cls := w0.extractLsb' 6 2
    aliased := w0.getLsbD 8
    pin := w0.getLsbD 9
    xrep := w0.getLsbD 10
    gen := w0.extractLsb' 16 16
    extcnt := (w0.extractLsb' 32 17).toNat
    len := ((physWord s (p + 8)).extractLsb' 0 41).toNat
    extptr := physField (physWord s (p + 16))
    cairn := (physWord s (p + 24)) &&& 0x7FFF_FFFF_FFFF_FFFF#64
    xname := (physWord s (p + 32)).extractLsb' 0 16 }

/-- An extent descriptor (R279). -/
structure Extent where
  start : Nat
  psz : Nat
  striped : Bool
  res : Bool
  gran : Nat
  ncores : Nat
  pbase : Nat
  deriving DecidableEq, Repr

/-- Descriptor k of a list. -/
def readExtent (s : State) (extptr k : Nat) : Extent :=
  let p := extptr + 16 * k
  let w0 := physWord s p
  { start := (w0.extractLsb' 0 40).toNat
    psz := (w0.extractLsb' 40 3).toNat
    striped := w0.getLsbD 43
    res := w0.getLsbD 44
    gran := (w0.extractLsb' 45 4).toNat
    ncores := (w0.extractLsb' 49 12).toNat
    pbase := physField (physWord s (p + 8)) }

/-- The page size of a contiguous extent (R278). -/
def pageSize (psz : Nat) : Nat :=
  match psz with
  | 0 => 2 ^ 12
  | 1 => 2 ^ 16
  | 2 => 2 ^ 21
  | 3 => 2 ^ 25
  | 4 => 2 ^ 29
  | _ => 2 ^ 33

/-- The rules of R280 on a descriptor's own fields, and the package number of R424. -/
def Extent.wellFormed (x : Extent) : Bool :=
  packageOf x.pbase < 576 &&
  (if x.striped then
    x.gran ≤ 9 && x.psz = 0 && kindOf x.pbase = 0 && 1 ≤ x.ncores && x.ncores ≤ 3072 &&
    x.start % 2 ^ (12 + x.gran) = 0 && x.pbase % 2 ^ 28 % 2 ^ (12 + x.gran) = 0 &&
    globalCore x.pbase + x.ncores - 1 ≤ 3071
  else
    x.psz ≤ 5 && (kindOf x.pbase = 0 || kindOf x.pbase = 3) &&
    x.start % pageSize x.psz = 0 && x.pbase % pageSize x.psz = 0)

/-- ExtentMap of R281. -/
def extentMap (x : Extent) (off : Nat) : Nat :=
  let d := off - x.start
  if x.striped then
    let g := 2 ^ (12 + x.gran)
    let u := d / g
    physAddr (packageOf x.pbase) 0 (globalCore x.pbase + u % x.ncores) (x.pbase % 2 ^ 28 + u / x.ncores * g + d % g)
  else x.pbase + d

/-- The rules of R280 on where the block maps: a core field of at most 767, a byte below the end of its channel. -/
def mapsInside (x : Extent) (off : Nat) : Bool :=
  if x.striped then
    let g := 2 ^ (12 + x.gran)
    let d := off - x.start
    x.pbase % 2 ^ 28 + d / g / x.ncores * g + d % g < 2 ^ 28
  else kindOf x.pbase = 3 || extentMap x off / 2 ^ 28 % 2 ^ 10 ≤ 767

/-- A successful translation of one block. -/
structure Xlat where
  phys : Nat
  perm : BitVec 5
  cls : BitVec 2
  cairn : Word
  aliased : Bool
  /-- LEN of the object. -/
  limit : Nat
  gen : BitVec 16
  /-- The page or granule: object offset, length, physical base. -/
  pageOff : Nat
  pageLen : Nat
  pagePhys : Nat
  deriving DecidableEq, Repr

/-- The descriptors that a walk's binary search reads, in order, and the index it ends at (R285). The fuel is the 17 halvings
that a count of at most 65,536 allows. -/
def probes (s : State) (extptr off : Nat) : Nat → Nat → Nat → List Nat × Nat
  | 0, lo, _ => ([], lo)
  | fuel + 1, lo, hi =>
    if lo < hi then
      let mid := (lo + hi + 1) / 2
      let r := if (readExtent s extptr mid).start ≤ off then probes s extptr off fuel mid hi
        else probes s extptr off fuel lo (mid - 1)
      (mid :: r.1, r.2)
    else ([], lo)

/-- The order rule of R280 among the descriptors that a walk reads. -/
def inOrder (s : State) (extptr : Nat) (read : List Nat) : Bool :=
  read.all fun i =>
    (i ≠ 0 || (readExtent s extptr i).start = 0) &&
    read.all fun j => !(decide (i < j)) || decide ((readExtent s extptr i).start < (readExtent s extptr j).start)

/-- Checks 1 to 4 of R282 for `n` bytes at `off`. -/
def checkEntry (s : State) (id off n : Nat) (need : Need) : Option XFail :=
  if id = 0 then some (.invalid 1)
  else if s.ecc.contains (entryAddr s id) then some (.invalid 5)
  else
    let e := readEntry s id
    if !e.v then some (.invalid 2)
    else if e.cls = 3 || e.extcnt = 0 || 65536 < e.extcnt || e.extptr % 64 ≠ 0 || (e.cls = 1 && objId e.cairn = 0) then
      some (.invalid 3)
    else if e.len < off + n then some .bounds
    else if !need.grantedBy e.perm then some .permission
    else none

/-- Walk of R285 with the checks of R282, for `n` bytes of one block. Check 5 gives no order among its own failures: a list with an
unreadable descriptor is reported as unreadable, whichever descriptor the search read first. An entry or list whose own home does not
answer is read as if it did: R427 speaks of accesses, not of walks. DESIGN CHOICE (log 41): both. -/
def walk (s : State) (id off n : Nat) (need : Need) : Except XFail Xlat :=
  match checkEntry s id off n need with
  | some e => .error e
  | none =>
    let e := readEntry s id
    let r := probes s e.extptr off 17 0 (e.extcnt - 1)
    let read := if r.1.contains r.2 then r.1 else r.1 ++ [r.2]
    let x := readExtent s e.extptr r.2
    if read.any fun k => s.ecc.contains (blockOf (e.extptr + 16 * k)) then .error (.invalid 5)
    else if !(read.all fun k => (readExtent s e.extptr k).wellFormed) || !inOrder s e.extptr read || !mapsInside x off then
      .error (.invalid 4)
    else if !x.res then .error (if e.pin then .invalid 6 else .nonResident)
    else
      let size := if x.striped then 2 ^ (12 + x.gran) else pageSize x.psz
      let start := x.start + (off - x.start) / size * size
      let stop := if r.2 + 1 < e.extcnt then (readExtent s e.extptr (r.2 + 1)).start else e.len
      let len := if stop < start + size then stop - start else size
      .ok { phys := extentMap x off, perm := e.perm, cls := e.cls, cairn := e.cairn, aliased := e.aliased, limit := e.len,
            gen := e.gen, pageOff := start, pageLen := len, pagePhys := extentMap x start }

/-- The translation-cache entry that a walk fills (R284). -/
def Xlat.entry (x : Xlat) (id : Nat) : Translation :=
  { id := BitVec.ofNat 23 id, gen := x.gen, off := x.pageOff, len := x.pageLen, phys := x.pagePhys, perm := x.perm,
    cls := x.cls, cairn := x.cairn, aliased := x.aliased, limit := x.limit }

/-- The cached translation that holds an offset. -/
def cached (tc : List Translation) (id off : Nat) : Option Translation :=
  tc.find? fun t => t.id.toNat = id && t.off ≤ off && off < t.off + t.len

/-- A cached entry as a translation of one offset. -/
def Translation.at (t : Translation) (off : Nat) : Xlat :=
  { phys := t.phys + (off - t.off), perm := t.perm, cls := t.cls, cairn := t.cairn, aliased := t.aliased, limit := t.limit,
    gen := t.gen, pageOff := t.off, pageLen := t.len, pagePhys := t.phys }

/-- The set of a translation cache that an entry falls in, of 512, and the ways of a set (R284). DESIGN CHOICE (log 6): the index. -/
def tcSet (t : Translation) : Nat := (t.id.toNat + t.off / 4096) % 512
def tcWays : Nat := 8

/-- The cache with a new entry first: one entry a page, an entry of a full set replaced as the hardware chooses. -/
def tcFill (tc : List Translation) (t : Translation) (n : Nat) : List Translation :=
  let rest := tc.filter fun u => !(u.id = t.id && u.off = t.off)
  let ways := rest.filter fun u => tcSet u = tcSet t
  if ways.length < tcWays then t :: rest
  else match ways[Config.victim n tcWays % tcWays]? with
    | some u => t :: rest.erase u
    | none => t :: rest

/-- The translations of a page that holds an offset, dropped. -/
def tcDrop (tc : List Translation) (id off : Nat) : List Translation :=
  tc.filter fun t => !(t.id.toNat = id && t.off ≤ off && off < t.off + t.len)

/-- A translation through the cluster's translation cache. A hit on which the access would fault is a miss, and its entry is dropped
(R284): here by the walk's fill, and by `XFail.stale` where the walk fails. -/
def translate (s : State) (cluster id off n : Nat) (need : Need) : Except XFail (Xlat × State) :=
  let hit := (cached (s.clusterAt cluster).tc id off).filter fun t => need.grantedBy t.perm && off + n ≤ t.limit
  match hit with
  | some t => .ok (t.at off, s)
  | none =>
    match walk s id off n need with
    | .error e => .error e
    | .ok x => .ok (x, s.modCluster cluster fun c => { c with tc := tcFill (tcDrop c.tc id off) (x.entry id) s.nfree })

end Sys2Proof.Machine
end

