-- ==== Sys2Proof/Machine/Trace.lean ====
section
/-!
DEFINITION. The trace unit of a core (R428 to R432): track records, extended records, the 64-byte buffer and the ring.
Nothing here acts while TRCTL.EN is 0.
-/

namespace Sys2Proof.Machine

/-- The size of the ring in bytes (R431). -/
def ringSize (c : Core) : Nat := 2 ^ (c.trSize.toNat + 12)

/-- The buffered records are written to the ring as one merge into their block, performed at home; a write that fails, by its
translation or because its home does not answer or refuses it, sets ERR, clears EN and discards them (R301, R427, R431). -/
def traceFlush (k : Nat) (s : State) : State :=
  let c := s.coreAt k
  if c.trBuf.isEmpty then s
  else
    let off := (c.trOff.toNat + ringSize c - c.trBuf.length) % ringSize c
    let lost := s.modCore k fun c => { c with trBuf := [], trErr := true, trEn := false }
    match walk s c.trObj.toNat off c.trBuf.length .write with
    | .ok x =>
      let m := byteMask (x.phys % 64) c.trBuf.length
      if !reachable s x.phys || mergeRefused s (blockOf x.phys) m 0 then lost
      else (homeMerge s (blockOf x.phys) (placed (x.phys % 64) c.trBuf) m 0 0).modCore k fun c => { c with trBuf := [] }
    | .error _ => lost

/-- One 32-bit word appended to the buffer while tracing; the buffer is written when it fills its block (R431). -/
def tracePut (k : Nat) (w : BitVec 32) (s : State) : State :=
  if !(s.coreAt k).trEn then s
  else
    let s := s.modCore k fun c =>
      let off := c.trOff.toNat + 4
      { c with
        trBuf := c.trBuf ++ leBytes 4 w.toNat
        trSince := if c.trBuf.isEmpty then s.pkg.cyc else c.trSince
        trOff := BitVec.ofNat 27 (off % ringSize c)
        trLaps := if off = ringSize c then c.trLaps + 1 else c.trLaps }
    if (s.coreAt k).trOff.toNat % 64 = 0 then traceFlush k s else s

/-- The words of a record, in order. -/
def tracePutAll (k : Nat) : List (BitVec 32) → State → State
  | [], s => s
  | w :: ws, s => tracePutAll k ws (tracePut k w s)

/-- A track word: state, cycles since the previous record, reason (R428). -/
def trackWord (st : BitVec 2) (cycles : Nat) (reason : BitVec 8) : BitVec 32 := st ++ BitVec.ofNat 22 cycles ++ reason

/-- The cycles from the previous record to a date; none where the date lies before it (log 23). -/
def cyclesTo (c : Core) (date : Word) : Nat := if date.ult c.trDate then 0 else (date - c.trDate).toNat

/-- The later of a date and the previous record's. -/
def dateAfter (c : Core) (date : Word) : Word := if date.ult c.trDate then c.trDate else date

/-- A header word written, dated (R428, R430): its cycles are at most 0x3F_FFFF, those of a pad word before a sync record too. DESIGN CHOICE
(log 44). -/
def traceHeader (k : Nat) (st : BitVec 2) (reason : BitVec 8) (date : Word) (s : State) : State :=
  let c := s.coreAt k
  (tracePut k (trackWord st (min 0x3F_FFFF (cyclesTo c date)) reason) s).modCore k fun c => { c with trDate := dateAfter c date }

/-- Pad words until TRPOS is a multiple of the record's size (R430). -/
def tracePad (k bytes : Nat) (date : Word) : Nat → State → State
  | 0, s => s
  | fuel + 1, s =>
    let c := s.coreAt k
    if c.trOff.toNat % bytes = 0 then s else tracePad k bytes date fuel (traceHeader k c.trState 0xFF date s)

/-- A sync record, dated: its header's cycles field is 0 (R430). -/
def traceSync (k : Nat) (date : Word) (s : State) : State :=
  let s := tracePad k 16 date 4 s
  let c := s.coreAt k
  let s := tracePutAll k [trackWord c.trState 0 0xF0, date.extractLsb' 0 32, date.extractLsb' 32 32, 0] s
  s.modCore k fun c => { c with trDate := date }

/-- The sync record that a long interval asks for (R429). -/
def traceCatchUp (k : Nat) (date : Word) (s : State) : State :=
  if 0x3F_FFFF < cyclesTo (s.coreAt k) date then traceSync k date s else s

/-- The interval of samples (R432). -/
def sampleEvery (c : Core) : Nat := max 1024 c.smpint.toNat

/-- The samples that would have fallen due up to a date are passed over: the core was idle, or did not trace (R432). -/
def Core.skipSamples (c : Core) (date : Word) : Core :=
  let n := sampleEvery c
  { c with smpFrom := c.smpFrom + BitVec.ofNat 64 ((date - c.smpFrom).toNat / n * n) }

/-- A change of state, dated (R429). -/
def traceChange (k : Nat) (st : BitVec 2) (reason : BitVec 8) (date : Word) (s : State) : State :=
  if !(s.coreAt k).trEn then s
  else
    let old := (s.coreAt k).trState
    (traceHeader k st reason date (traceCatchUp k date s)).modCore k fun c =>
      let c := { c with trState := st, trHeld := none }
      if old = 0 && st ≠ 0 then c.skipSamples date else c

/-- The words of a mark or sample after its header: core and TAG, and EPC (R430). A caravan follower has no activation, and the mark that
its TMARK writes carries 0 in TAG and EPC. DESIGN CHOICE (log 18): the rules give it no value. -/
def traceWho (k : Nat) (c : Core) : List (BitVec 32) :=
  let tag := match c.act with | some a => a.tag | none => 0
  let epc := match c.act with | some a => a.epc | none => 0
  [BitVec.ofNat 32 (k % 2 ^ 12 + tag.toNat * 2 ^ 12), epc.extractLsb' 0 32, epc.extractLsb' 32 32]

/-- A 32-byte extended record: a mark (0xF1) or a sample (0xF2) (R430). -/
def traceExtended (k : Nat) (reason : BitVec 8) (a : Word) (b : Word) (s : State) : State :=
  if !(s.coreAt k).trEn then s
  else
    let now := s.pkg.cyc
    let s := tracePad k 32 now 8 (traceCatchUp k now s)
    let c := s.coreAt k
    let words := traceWho k c ++ [a.extractLsb' 0 32, a.extractLsb' 32 32, b.extractLsb' 0 32, b.extractLsb' 32 32]
    tracePutAll k words (traceHeader k c.trState reason now s)

/-- The state of R428 that a hold reason belongs to. -/
def holdState (reason : BitVec 8) : BitVec 2 := if reason.toNat < 0x40 then 2 else 3

/-- One cause holds the core's issue: after 16 cycles the wait is a state of its own, dated at the first held cycle (R429). Another
cause than before ends the wait of the earlier one. -/
def traceHold (k : Nat) (reason : BitVec 8) (s : State) : State :=
  let c := s.coreAt k
  if !c.trEn then s
  else
    let begin (s : State) : State := s.modCore k fun c => { c with trHeld := some (s.pkg.cyc, reason) }
    match c.trHeld with
    | none => begin s
    | some (since, r) =>
      if r ≠ reason then begin (if c.trState = 1 then s else traceChange k 1 0x20 s.pkg.cyc s)
      else if c.trState = 1 && 16 ≤ (s.pkg.cyc - since).toNat then
        (traceChange k (holdState reason) reason since s).modCore k fun c => { c with trHeld := some (since, reason) }
      else s

/-- Issue goes on, or is held for a reason that the table does not list: a wait of state 2 or 3 has ended (R428 reason 0x20). -/
def traceIssue (k : Nat) (s : State) : State :=
  let c := s.coreAt k
  if !c.trEn then s
  else
    let s := match c.trHeld with | some (_, r) => traceHold k r s | none => s
    if (s.coreAt k).trState = 2 || (s.coreAt k).trState = 3 then traceChange k 1 0x20 s.pkg.cyc s
    else s.modCore k fun c => { c with trHeld := none }

/-- Issue is held for a reason code of R428, or for a reason that the table does not list, 0 (R429). -/
def traceStall (k : Nat) (why : BitVec 8) (s : State) : State := if why = 0 then traceIssue k s else traceHold k why s

/-- The reason code of R428 of a wait, or 0 where that table names none: a park that waits for an entry is state 0 (R445). -/
def Wait.reason (w : Wait) : BitVec 8 :=
  match w with
  | .sleep _ => 0x33
  | .mwait => 0x32
  | .waitt .. => 0x43
  | .acquire .. => 0x42
  | .crest .. => 0x31
  | .parkEntry .. | .leave => 0
  | .expert => 0x41

/-- What holds a core's issue as time passes: the wait of its instruction, or what stalled it last (R429). -/
def traceWait (s : State) (k : Nat) : State :=
  let c := s.coreAt k
  if !c.trEn then s
  else
    match c.phase with
    | .wait w => if w.reason = 0 then s else traceHold k w.reason s
    | .run | .follower => (match c.trHeld with | some (_, r) => traceHold k r s | none => s)
    | _ => s

/-- Every listed core's hold, as time passes. -/
def traceWaits (s : State) : State := s.listed.foldl traceWait s

end Sys2Proof.Machine
end

