-- ==== Sys2Proof/Machine/Cache.lean ====
section
/-!
DEFINITION. The caches of a core and its cluster as functions of the package state: L1 lines, write-backs, L2 sectors, binding
slots and cairns at their homes (R63, R64, R182, R286, R302 to R313).
-/

namespace Sys2Proof.Machine

/-! ### Lines -/

/-- A line holds bytes that its home does not (R63). -/
def Line.isDirty (l : Line) : Bool := l.dirty ≠ 0 || l.tagDirty ≠ 0

/-- Clean, committed dirty and uncommitted dirty (R63). -/
def Line.isClean (l : Line) : Bool := !l.isDirty
def Line.isCommitted (l : Line) : Bool := l.isDirty && !l.unc

/-- The set of a line: 128 sets by line number. DESIGN CHOICE (log 6). -/
def setOf (addr : Word) : Nat := addr.toNat / 64 % 128

/-- The line of a block. -/
def findLine (c : Core) (blk : Word) : Option Line := c.lines.find? (·.addr = blk)

/-- The lines with one replaced, found by its address. -/
def setLine (ls : List Line) (l : Line) : List Line := ls.map fun m => if m.addr = l.addr then l else m

/-- The lines without one. -/
def dropLine (ls : List Line) (addr : Word) : List Line := ls.filter (·.addr ≠ addr)

/-- The line once its bytes are at home. -/
def Line.cleaned (l : Line) : Line := { l with dirty := 0, tagDirty := 0, unc := false, recheck := false }

/-- The line without its clean bytes (R310, R323). -/
def Line.onlyDirty (l : Line) : Line := { l with valid := l.valid &&& l.dirty, tagValid := l.tagValid &&& l.tagDirty }

/-- A package service message waits for the host queue (R420). -/
def postService (ch : Nat) (bytes : List Byte) (s : State) : State := s.modPkg fun p => { p with services := p.services ++ [(ch, bytes)] }

/-- The body of a service message of channels 3 to 5 (R420). -/
def serviceBody (kind a b c : Nat) (cyc : Word) : List Byte :=
  leBytes 4 kind ++ leBytes 4 a ++ leBytes 4 b ++ leBytes 4 c ++ leBytes 8 cyc.toNat ++ leBytes 8 0

/-- The body that names an unreachable package (R420). -/
def lostBody (pkg : Nat) (u : Lost) : List Byte := serviceBody 2 pkg u.drops.toNat 0 u.since

/-- An access to an unreachable package is dropped (R427). The first one posts the entry of channel 4; while that entry waits for the
host queue its count keeps up (log 32). -/
def dropTo (pkg : Nat) (s : State) : State :=
  match assocGet s.pkg.unreachable pkg with
  | none => s
  | some u =>
    let u' := { u with drops := if u.drops = BitVec.allOnes 32 then u.drops else u.drops + 1 }
    let s := s.modPkg fun p => { p with
      unreachable := assocSet p.unreachable pkg u'
      services := p.services.map fun m => if m = (4, lostBody pkg u) then (4, lostBody pkg u') else m }
    if u.drops = 0 then postService 4 (lostBody pkg u') s else s

/-- An access that a home which does not answer loses, counted (R427). -/
def countDrop (s : State) (phys : Nat) : State :=
  if kindOf phys = 3 then s.modPkg fun p => { p with linkDrops := if p.linkDrops = BitVec.allOnes 32 then p.linkDrops else p.linkDrops + 1 }
  else dropTo (packageOf phys) s

/-- A block homed in this package's DRAM, the only memory that L2 caches (R302). -/
def isLocalDram (s : State) (phys : Nat) : Bool := kindOf phys = 0 && packageOf phys = s.pkg.pkgid.toNat

/-- The written bytes kept in the slice's clean copy (R302). -/
def l2Merge (g : Nat) (l : Line) (s : State) : State :=
  if (s.clusterAt g).l2.any (·.phys = l.phys) then
    s.modCluster g fun c =>
      { c with l2 := c.l2.map fun x =>
          if x.phys = l.phys then
            { x with
              data := mergeBlock x.data l.data l.dirty
              valid := x.valid ||| l.dirty
              tag := mergeTag x.tag l.tag l.tagDirty
              tagValid := x.tagValid ||| l.tagDirty }
          else x }
  else s

/-- A line's dirty bytes and tag bytes performed at home, under their masks (R63, R182, R302). What the home refuses is lost, and no copy
of it is kept (R301); what is written to a home that does not answer is dropped and counted (R427). -/
def writeHome (k : Nat) (l : Line) (s : State) : State :=
  if !l.isDirty || mergeRefused s l.phys l.dirty l.tagDirty then s
  else if !reachable s l.phys then countDrop s l.phys
  else l2Merge (clusterOf k) l (homeMerge s l.phys l.data l.dirty l.tag l.tagDirty)

/-- Whether a write-back keeps its line dirty because the home cannot be reached (R427): only another package's does. One of host memory
while the host link is down is a posted host-memory write, dropped and counted. DESIGN CHOICE (log 44). -/
def keepsDirty (s : State) (l : Line) : Bool := kindOf l.phys ≠ 3 && !reachable s l.phys

/-- L1 keeps no clean byte of a line: it is homed outside this package's DRAM and no slot binds it (R304), or its home has refused
its bytes (R301). -/
def keepsNothing (s : State) (l : Line) : Bool :=
  (!isLocalDram s l.phys && l.slot.isNone) || mergeRefused s l.phys l.dirty l.tagDirty

/-- A committed dirty line of core k is written back and stays as a clean line, where L1 may keep one. -/
def writeBack (k : Nat) (l : Line) (s : State) : State :=
  if keepsDirty s l then s
  else
    (writeHome k l s).modCore k fun c =>
      { c with lines := if keepsNothing s l then dropLine c.lines l.addr else setLine c.lines l.cleaned }

/-- A line of core k is written back if committed dirty, and then invalidated. -/
def evictLine (k : Nat) (l : Line) (s : State) : State :=
  if l.isDirty && keepsDirty s l then s
  else (writeHome k l s).modCore k fun c => { c with lines := dropLine c.lines l.addr }

/-- Every committed dirty line of core k that satisfies `p` is written back. -/
def writeBackAll (k : Nat) (p : Line → Bool) (s : State) : State :=
  ((s.coreAt k).lines.filter fun l => l.isCommitted && p l).foldl (fun s l => writeBack k l s) s

/-- Every committed dirty line that satisfies `p` is written back; it and every clean one are invalidated. -/
def purgeLines (k : Nat) (p : Line → Bool) (s : State) : State :=
  ((s.coreAt k).lines.filter fun l => !(l.isDirty && l.unc) && p l).foldl (fun s l => evictLine k l s) s

/-- The first committed line that satisfies `p` and whose write-back its home refuses (R301). -/
def refusedLine (k : Nat) (p : Line → Bool) (s : State) : Option Line :=
  (s.coreAt k).lines.find? fun l => l.isCommitted && p l && mergeRefused s l.phys l.dirty l.tagDirty

/-! ### L2 (R302, R303) -/

/-- The 128-byte line of a sector, and its set: 2,048 sets of 16 ways by line number. DESIGN CHOICE (log 6). -/
def l2Line (phys : Nat) : Nat := phys / 128
def l2Set (phys : Nat) : Nat := l2Line phys % 2048

/-- The members of a cluster. -/
def membersOf (g : Nat) : List Nat := (List.range 16).map (16 * g + ·)

/-- The distinct L2 lines of a set. -/
def l2SetLines (l2 : List Sector) (phys : Nat) : List Nat :=
  ((l2.filter fun x => l2Set x.phys = l2Set phys).map fun x => l2Line x.phys).eraseDups

/-- Some L1 of the cluster holds uncommitted bytes under an L2 line. -/
def l2Pinned (g ln : Nat) (s : State) : Bool :=
  (membersOf g).any fun k => (s.coreAt k).lines.any fun l => l.unc && l2Line l.phys = ln

/-- An L2 line is evicted with the L1 copies under it, their committed bytes written back first (R302). -/
def l2Evict (g ln : Nat) (s : State) : State :=
  let s := (membersOf g).foldl (fun s k => purgeLines k (fun l => l2Line l.phys = ln) s) s
  let s := s.modCluster g fun c => { c with l2 := c.l2.filter fun x => l2Line x.phys ≠ ln }
  (membersOf g).foldl (fun s k =>
    if (s.coreAt k).ilines.any (fun l => l2Line l.phys = ln) then
      s.modCore k fun c => { c with ilines := c.ilines.filter fun l => l2Line l.phys ≠ ln }
    else s) s

/-- The lines of a set other than that of an address, once they fill it; none while a way is free. -/
def l2Others (g phys : Nat) (s : State) : List Nat :=
  let ls := (l2SetLines (s.clusterAt g).l2 phys).filter (· ≠ l2Line phys)
  if ls.length < 16 then [] else ls

/-- A full set in which uncommitted L1 bytes pin every line: R302 evicts none of them, and its sixteen ways are all there are. What
a miss then does is open: DESIGN CHOICE (log 7). A load or fetch is served without filling L1 or L2, as R69 has it for a full L1 set;
a store waits while another core's bytes pin a line, and overflows with cause 0x08 where its own core's alone pin them all. -/
def l2Full (g phys : Nat) (s : State) : Bool :=
  let ls := l2Others g phys s
  !ls.isEmpty && ls.all fun ln => l2Pinned g ln s

/-- Every line of such a set is pinned by core k's own bytes, so that no other core's commit can free one. -/
def l2FullOfOwn (k phys : Nat) (s : State) : Bool :=
  (l2Others (clusterOf k) phys s).all fun ln => (s.coreAt k).lines.any fun l => l.unc && l2Line l.phys = ln

/-- The line that leaves a full set to make room for an address: one of those that no uncommitted bytes pin. -/
def l2Victim (g phys : Nat) (s : State) : Option Nat :=
  match (l2Others g phys s).filter fun ln => !l2Pinned g ln s with
  | [] => none
  | c :: cs => some ((c :: cs).getD (Config.victim s.nfree (cs.length + 1) % (cs.length + 1)) c)

/-- Room for a sector in its set. -/
def l2Room (g phys : Nat) (s : State) : State :=
  match l2Victim g phys s with
  | some ln => l2Evict g ln s
  | none => s

/-- The committed line whose write-back the home would refuse, of those that leave with the line that makes room (R301). -/
def l2Refused (g phys : Nat) (s : State) : Option (Nat × Line) :=
  match (l2Victim g phys s).filter fun _ => isLocalDram s phys with
  | some ln => (membersOf g).findSome? fun k => (refusedLine k (fun l => l2Line l.phys = ln) s).map (k, ·)
  | none => none

/-- The sector that R303 lets an L1 miss use: its epoch at least the requester's for a bound line, its fill later than the stamp. One
that does not hold the whole block serves none (log 7). -/
def l2Hit (g phys : Nat) (bound : Bool) (epoch : Word) (stamp : Option Word) (s : State) : Option Sector :=
  if !isLocalDram s phys then none
  else (s.clusterAt g).l2.find? fun x =>
    x.phys = blockOf phys && x.valid = BitVec.allOnes 64 && x.tagValid = BitVec.allOnes 5 && (!bound || epoch.ule x.epoch) &&
      (match stamp with | some t => t.ult x.fill | none => true)

/-- A sector with the values that a fill records (R303). -/
def newSector (s : State) (phys : Nat) (b : Block) (valid : BitVec 64) (tagValid : BitVec 5) (epoch : Word) : Sector :=
  ⟨blockOf phys, b.data, b.tag, valid, tagValid, s.pkg.cyc, epoch⟩

/-- A block as cluster g reads it for an L1 miss: from a usable sector, else from the home, filling the sector where its set has
room. -/
def l2Read (g phys : Nat) (bound : Bool) (epoch : Word) (stamp : Option Word) (s : State) : Block × State :=
  match l2Hit g phys bound epoch stamp s with
  | some x => (⟨x.data, x.tag⟩, s)
  | none =>
    let b := physBlock s phys
    if !isLocalDram s phys || l2Full g phys s then (b, s)
    else
      let s := l2Room g (blockOf phys) s
      (b, s.modCluster g fun c =>
        { c with l2 := newSector s phys b (BitVec.allOnes 64) (BitVec.allOnes 5) (if bound then epoch else 0) ::
            c.l2.filter fun x => x.phys ≠ blockOf phys })

/-- Whether an L1 of cluster g may hold a block: its slice includes it, or caches no block of that home (R302). -/
def l2Includes (g phys : Nat) (s : State) : Bool := !isLocalDram s phys || (s.clusterAt g).l2.any (·.phys = blockOf phys)

/-- The slice takes a block that a store's miss places in L1 without fetching it: a sector that holds no byte yet (R63, R302). -/
def l2Allocate (g phys : Nat) (epoch : Word) (s : State) : State :=
  if l2Includes g phys s then s
  else
    let s := l2Room g phys s
    s.modCluster g fun c => { c with l2 := newSector s phys ⟨0, 0⟩ 0 0 epoch :: c.l2 }

/-- A full set of the home's presence directory recalls the L2 line at an address: the slices write back its committed L1 bytes and
drop it. A line under which uncommitted bytes lie stays, since R302 never evicts it (R305, log 28). -/
def recallLine (phys : Nat) (s : State) : State :=
  (s.clusters.map (·.1)).foldl (fun s g =>
    if (s.clusterAt g).l2.any (fun x => decide (l2Line x.phys = l2Line phys)) && !l2Pinned g (l2Line phys) s then
      l2Evict g (l2Line phys) s
    else s) s

/-- The slice keeps what its own cores have stored or copied at home past L1, so that their later loads see it (R64, R217). An
atomic's result it does not take (R150). DEDUCED (log 7). -/
def l2Refresh (g phys : Nat) (s : State) : State :=
  if (s.clusterAt g).l2.any (·.phys = blockOf phys) then
    let b := physBlock s phys
    let new (x : Sector) : Sector := { x with data := b.data, tag := b.tag, valid := BitVec.allOnes 64, tagValid := BitVec.allOnes 5 }
    s.modCluster g fun c => { c with l2 := c.l2.map fun x => if x.phys = blockOf phys then new x else x }
  else s

/-! ### Cairns at their home (R306) -/

/-- A core as cairns record it: package × 4,096 + identifier. -/
def globalNumber (s : State) (k : Nat) : Nat := s.pkg.pkgid.toNat * 4096 + k

/-- The fields of a cairn, from the bytes at its home. -/
def cairnMode (s : State) (p : Nat) : Nat := physNat s p 8 % 4
def cairnHolder (s : State) (p : Nat) : Nat := physNat s p 8 / 4 % 2 ^ 22
def cairnCount (s : State) (p : Nat) : Nat := physNat s p 8 / 2 ^ 24 % 2 ^ 22
def cairnLR (s : State) (p : Nat) : Nat := physNat s (p + 8) 8 % 2 ^ 22
def cairnHcnt (s : State) (p : Nat) : Word := physWord s (p + 24)
def cairnWcnt (s : State) (p : Nat) : Nat := physNat s (p + 32) 8 % 2 ^ 22

/-- MODE, HOLDER and SCOUNT written. -/
def setCairnMode (p mode holder count : Nat) (s : State) : State :=
  physPutNat s p 8 (mode % 4 + holder % 2 ^ 22 * 4 + count % 2 ^ 22 * 2 ^ 24)

/-- LR written and LRV set. -/
def setCairnLR (p lr : Nat) (s : State) : State := physPutNat s (p + 8) 8 (lr % 2 ^ 22 + 2 ^ 63)

/-- RCNT raised, HCNT raised. -/
def addRcnt (p n : Nat) (s : State) : State := physPutNat s (p + 16) 8 ((physNat s (p + 16) 8 + n) % 2 ^ 64)
def addHcnt (p : Nat) (s : State) : State := physPutNat s (p + 24) 8 ((physNat s (p + 24) 8 + 1) % 2 ^ 64)

/-- WCNT and WMASK as the queue of waiters gives them (R306): a waiter of another package's cairn sets no bit (R425). -/
def setWaiting (p : Nat) (s : State) : State :=
  let ws := s.waiters.filter (·.phys = p)
  let mask := if packageOf p = s.pkg.pkgid.toNat then ws.foldl (fun m w => m ||| 2 ^ clusterOf w.party.core) 0 else 0
  physPutNat (physPutNat s (p + 32) 8 (ws.length % 2 ^ 22)) (p + 40) 24 mask

/-- The home records a holder (the last lines of HomeAcquire). -/
def recordHolder (p : Nat) (k : Nat) (excl : Bool) (s : State) : State :=
  if excl then setCairnMode p 2 (globalNumber s k) 0 s
  else setCairnMode p 3 0 ((if cairnMode s p = 3 then cairnCount s p else 0) + 1) s

/-- The slot of core k that names a cairn. -/
def slotNamed (c : Core) (cairn : Word) : Option Nat :=
  (List.range 8).find? fun n => (c.slots.toList.getD n Slot.free).valid && (c.slots.toList.getD n Slot.free).cairn = cairn

/-- Slot n of a core. -/
def Core.slot (c : Core) (n : Nat) : Slot := c.slots.toList.getD n Slot.free

/-- The core with slot n replaced. -/
def Core.putSlot (c : Core) (n : Nat) (x : Slot) : Core := { c with slots := c.slots.setIfInBounds n x }

/-- Slot n of core k changed. -/
def modSlot (k n : Nat) (f : Slot → Slot) (s : State) : State := s.modCore k fun c => c.putSlot n (f (c.slot n))

/-- Core k answers a surrender for a cairn (R311, R315): its committed lines bound to the cairn are written back, and its local
releases and any local hold become the home's. The surrender is counted in REGST.SURR. A local hold that it reports is local no more: its
release is told to the home. DESIGN CHOICE (log 44). -/
def surrender (k : Nat) (cairn : Word) (p : Nat) (s : State) : State :=
  match slotNamed (s.coreAt k) cairn with
  | none => setCairnMode p 0 0 0 (addHcnt p s)
  | some n =>
    let x := (s.coreAt k).slot n
    let lines := ((s.coreAt k).lines.filter fun l => l.isCommitted && l.slot = some n).length
    let s := writeBackAll k (fun l => l.slot = some n) s
    let s := s.modCore k fun c => { c with surr := BitVec.ofNat 16 (min 0xFFFF (c.surr.toNat + lines)) }
    let s := addHcnt p (addRcnt p x.lrel.toNat s)
    let s := match x.hold with
      | .none => setCairnMode p 0 0 0 s
      | .shared => setCairnMode p 3 0 1 s
      | .exclusive => setCairnMode p 2 (globalNumber s k) 0 s
    modSlot k n (fun x => { x with ret := false, loc := false, lrel := 0 }) s

/-- Whether a request must wait (the test of HomeAcquire). -/
def cairnBusy (s : State) (p : Nat) (excl : Bool) : Bool :=
  cairnMode s p = 2 || (cairnMode s p = 3 && excl) || 0 < cairnWcnt s p

/-- A hold of a cairn in the hands of a message or a continuation keeps the notice that acquirers wait (R58, R445). -/
def PassedHold.notify (cairn : Word) (h : PassedHold) : PassedHold := if h.cairn = cairn then { h with wait := true } else h

/-- A record keeps the notice with the holds that it carries (R313). -/
def Carried.notify (cairn : Word) (x : Carried) : Carried := { x with holds := x.holds.map (PassedHold.notify cairn) }

/-- A push on its way keeps the notice with its record. -/
def Cargo.notify (cairn : Word) : Cargo → Cargo
  | .push dst r x => .push dst r (x.notify cairn)
  | c => c
def Transit.notify (cairn : Word) : Transit → Transit
  | .push src dst r x => .push src dst r (x.notify cairn)
  | t => t

/-- A park that waits for an entry keeps the notice with its record. -/
def Wait.notify (cairn : Word) : Wait → Wait
  | .parkEntry r holds msg p => .parkEntry r (holds.map (PassedHold.notify cairn)) msg p
  | w => w

/-- The holds of a cairn that a core keeps outside its slots (its messages', its records', its park entries') take the notice that
acquirers wait (R58, R313, R445). -/
def Core.notifyPassed (cairn : Word) (c : Core) : Core :=
  { c with
    buffered := c.buffered.map fun m => { m with grant := m.grant.map (PassedHold.notify cairn) }
    dqMeta := c.dqMeta.map fun x => (x.1, x.2.notify cairn)
    outbox := c.outbox.map fun e => { e with cargo := e.cargo.notify cairn }
    park := c.park.map fun e => e.map fun e => { e with holds := e.holds.map (PassedHold.notify cairn) }
    frozenWait := c.frozenWait.map (Wait.notify cairn)
    phase := match c.phase with
      | .wait w => .wait (w.notify cairn)
      | p => p }

/-- A core's holds of a cairn, its slot's and those that pass through it, take the notice that acquirers wait. -/
def Core.notify (cairn : Word) (c : Core) : Core :=
  let c := c.notifyPassed cairn
  match slotNamed c cairn with
  | some n => if (c.slot n).hold = Hold.none then c else c.putSlot n { c.slot n with wait := true }
  | none => c

/-- Every holder of a cairn in this package is told that acquirers wait (R311), the hold of a record on its way included (R313). -/
def notifyHolders (cairn : Word) (s : State) : State :=
  { s with
    core := s.core.notify cairn
    others := s.others.map fun x => (x.1, x.2.notify cairn)
    net := s.net.map (Transit.notify cairn) }

/-- The most waiters that one home queues (R311). -/
def homeWaiters : Nat := 64

/-- The grant of a queued or new request reaches its party as a packet. -/
def sendGrant (cairn : Word) (p : Nat) (party : Party) (s : State) : State :=
  let e := cairnHcnt s p
  { s with net := s.net ++ [match party.msg with
      | none => .grant cairn p party.core 0 e
      | some (ch, slot) => .msgGrant cairn party.core ch slot e] }

/-- The waiters at the head of the queue are granted: one exclusive, or every consecutive shared one (R311). -/
def grantWaiters (p : Nat) : Nat → State → State
  | 0, s => s
  | fuel + 1, s =>
    match s.waiters.find? (·.phys = p) with
    | none => s
    | some w =>
      if cairnMode s p = 2 || (cairnMode s p = 3 && w.excl) then s
      else
        let s := setWaiting p { s with waiters := s.waiters.erase w }
        grantWaiters p fuel (sendGrant w.cairn p w.party (recordHolder p w.party.core w.excl s))

/-- The grants that become possible, as many as the home may have queued. -/
def grantNext (p : Nat) (s : State) : State := grantWaiters p (s.waiters.length + 1) s

/-- What HomeAcquire answers: granted, busy, queued, or the queue is full (R311). -/
inductive HomeAnswer where
  | granted | busy | queued | full
  deriving DecidableEq, Repr

/-- HomeAcquire of R311, the surrender of the last releaser included. -/
def homeAcquire (cairn : Word) (p : Nat) (party : Party) (excl try_ : Bool) (s : State) : HomeAnswer × State :=
  let s :=
    if cairnMode s p = 1 then
      if cairnLR s p / 4096 = s.pkg.pkgid.toNat then surrender (cairnLR s p % 4096) cairn p s
      else setCairnMode p 0 0 0 (addHcnt p s)
    else s
  if cairnBusy s p excl then
    if try_ then (.busy, s)
    else if homeWaiters ≤ (s.waiters.filter fun w => homeOf w.phys = homeOf p).length then (.full, s)
    else (.queued, notifyHolders cairn (setWaiting p { s with waiters := s.waiters ++ [⟨cairn, p, party, excl⟩] }))
  else (.granted, recordHolder p party.core excl s)

/-- A holder is dropped from MODE and SCOUNT; with none left MODE becomes `rest` (R312, R310). -/
def dropHolder (p rest : Nat) (s : State) : State :=
  if cairnMode s p = 3 && 1 < cairnCount s p then setCairnMode p 3 0 (cairnCount s p - 1) s
  else setCairnMode p rest 0 0 s

/-- The home of a cairn answers, and takes a part of its block (R301, R427). Where no instruction is there to report it, a home that does
not is told nothing (log 26). -/
def homeTakes (s : State) (p : Nat) : Bool := reachable s p && !s.ecc.contains (blockOf p)

/-- A release told to the home (R312). -/
def homeRelease (p k : Nat) (eager : Bool) (lrel : Nat) (s : State) : State :=
  if !homeTakes s p then s
  else
    let s := addRcnt p (1 + lrel) s
    let s := setCairnLR p (globalNumber s k) s
    grantNext p (dropHolder p (if eager then 0 else 1) s)

/-- The home is told as a surrender, without having asked (R308, R313, R322): local releases are reported, and a cairn that it has
lent becomes the local hold's, or free. -/
def tellSurrender (k n p : Nat) (s : State) : State :=
  let x := (s.coreAt k).slot n
  let told (s : State) : State := modSlot k n (fun x => { x with ret := false, loc := false, lrel := 0 }) s
  if !homeTakes s p then told s
  else
    let s := addHcnt p (addRcnt p x.lrel.toNat s)
    let s :=
      if x.ret || x.loc then
        match x.hold with
        | .none => setCairnMode p 0 0 0 s
        | .shared => setCairnMode p 3 0 1 s
        | .exclusive => setCairnMode p 2 (globalNumber s k) 0 s
      else s
    grantNext p (told s)

/-- The physical address of a cairn, by its object's present translation. -/
def cairnPhys (s : State) (cairn : Word) : Option Nat :=
  match walk s (objId cairn) (objOff cairn) 64 .atomic with
  | .ok x => some x.phys
  | .error _ => none

/-! ### Binding slots (R308) -/

/-- Some line of slot n is uncommitted. -/
def slotHasUnc (c : Core) (n : Nat) : Bool := c.lines.any fun l => l.unc && l.slot = some n

/-- Some line of slot n stays dirty because its home does not answer (R427), so that it goes on naming the slot (R309). -/
def slotKeeps (s : State) (c : Core) (n : Nat) : Bool := c.lines.any fun l => l.slot = some n && l.isDirty && keepsDirty s l

/-- Slot n of core k is freed: its lines leave L1, and a home that lent its cairn is told (R308), unless the cairn does not translate at
present. DESIGN CHOICE (log 27). -/
def freeSlot (k n : Nat) (s : State) : State :=
  let s := purgeLines k (fun l => l.slot = some n) s
  let x := (s.coreAt k).slot n
  let s := match x.ret, cairnPhys s x.cairn with
    | true, some p => tellSurrender k n p s
    | _, _ => s
  if slotKeeps s (s.coreAt k) n then s else modSlot k n (fun _ => Slot.free) s

/-- The slots that may be freed for another cairn. -/
def freeable (s : State) (c : Core) (n : Nat) : Bool :=
  (c.slot n).hold = .none && !(c.slot n).sticky && !slotHasUnc c n && !slotKeeps s c n

/-- The least recently allocated of some slots. -/
def oldestSlot (c : Core) : List Nat → Option Nat
  | [] => none
  | n :: ns =>
    match oldestSlot c ns with
    | none => some n
    | some m => if (c.slot n).order ≤ (c.slot m).order then some n else some m

/-- A new slot for a cairn at number n. -/
def takeSlot (k n : Nat) (cairn : Word) (s : State) : State :=
  s.modCore k fun c =>
    { c.putSlot n { Slot.free with valid := true, cairn := cairn, order := c.slotCount } with slotCount := c.slotCount + 1 }

/-- The slot that a cairn's allocation would free: none where one names it, or one is free, or none may be freed. -/
def slotFreed (k : Nat) (cairn : Word) (s : State) : Option Nat :=
  let c := s.coreAt k
  if (slotNamed c cairn).isSome || (List.range 8).any fun n => !(c.slot n).valid then none
  else oldestSlot c ((List.range 8).filter (freeable s c))

/-- The slot for a cairn: the one that names it, a free one, or the least recently allocated that may be freed. -/
def slotFor (k : Nat) (cairn : Word) (s : State) : Option (Nat × State) :=
  let c := s.coreAt k
  match slotNamed c cairn with
  | some n => some (n, s)
  | none =>
    match (List.range 8).find? fun n => !(c.slot n).valid with
    | some n => some (n, takeSlot k n cairn s)
    | none =>
      match oldestSlot c ((List.range 8).filter (freeable s c)) with
      | some n => some (n, takeSlot k n cairn (freeSlot k n s))
      | none => none

/-- SelfInvalidate of R310: every clean line bound to slot n, and the clean bytes of its dirty lines. -/
def selfInvalidate (k n : Nat) (s : State) : State :=
  s.modCore k fun c =>
    { c with lines := (c.lines.filter fun l => !(l.slot = some n && l.isClean)).map fun l =>
        if l.slot = some n then l.onlyDirty else l }

/-- A grant recorded in slot n (R310). Its home has told the core if others wait for the cairn: DEDUCED from R308, R312 and R314
(log 8). -/
def installGrant (k n : Nat) (excl : Bool) (epoch : Word) (s : State) : State :=
  let s := if ((s.coreAt k).slot n).epoch.ult epoch then selfInvalidate k n s else s
  modSlot k n (fun x =>
    { x with
      epoch := epoch
      hold := if excl then .exclusive else .shared
      loc := false
      ret := false
      wait := s.waiters.any (·.cairn = x.cairn) }) s

/-- The release of a slot's hold is told to the home of its cairn, or stays local (R312). -/
def Slot.tells (x : Slot) : Bool := !x.loc || x.wait

/-- A release told to the home is eager: it writes the slot's lines back (R312). -/
def releaseEager (s : State) (x : Slot) (p : Nat) : Bool := x.wait || (x.hold = .shared && cairnMode s p = 3 && 1 < cairnCount s p)

/-- The release of slot n's hold (R312), after the commit and the checks. An eager one does not wait for a line that stays dirty because its
home does not answer (R427). DESIGN CHOICE (log 44). -/
def releaseSlot (k n p : Nat) (s : State) : State :=
  let x := (s.coreAt k).slot n
  if !x.tells then modSlot k n (fun x => { x with hold := .none, lrel := x.lrel + 1 }) s
  else
    let eager := releaseEager s x p
    let s := if eager then writeBackAll k (fun l => l.slot = some n) s else s
    let s := if eager && homeTakes s p then addHcnt p s else s
    let s := homeRelease p k eager x.lrel.toNat s
    modSlot k n (fun x => { x with hold := .none, lrel := 0, wait := false, loc := false, ret := !eager }) s

/-! ### Allocating lines (R63, R64, R69) -/

/-- The line that makes room in the set of an address: `some none` where a way is free, `none` where every way is kept. Ways of committed
lines kept dirty for an unreachable package (R427) are kept like those of uncommitted ones, and R69 speaks of the latter alone: in a set
of both a store that needs a line overflows, with cause 0x08, and a load is served without one. DESIGN CHOICE (log 6). -/
def victimFor (k : Nat) (addr : Word) (s : State) : Option (Option Line) :=
  let ways := (s.coreAt k).lines.filter fun m => setOf m.addr = setOf addr
  if ways.length < 8 then some none
  else
    let cands := ways.filter fun m => !m.unc && !(m.isDirty && keepsDirty s m)
    let chosen := match cands.find? (·.low) with
      | some m => some m
      | none => cands[Config.victim s.nfree cands.length % max 1 cands.length]?
    chosen.map some

/-- A line placed in its set, a committed or clean line evicted if the set is full; none when every way is uncommitted. -/
def allocLine (k : Nat) (l : Line) (s : State) : Option State :=
  match victimFor k l.addr s with
  | none => none
  | some none => some (s.modCore k fun c => { c with lines := l :: c.lines })
  | some (some m) => some ((evictLine k m s).modCore k fun c => { c with lines := l :: c.lines })

/-- The other lines of the cluster that hold a block under another object address, both objects with ALIAS (R286). -/
def synonyms (g : Nat) (addr : Word) (phys : Nat) (s : State) : List (Nat × Line) :=
  (membersOf g).flatMap fun k =>
    ((s.coreAt k).lines.filter fun l => l.aliased && l.phys = blockOf phys && l.addr ≠ addr).map (k, ·)

end Sys2Proof.Machine
end

