-- ==== Sys2Proof/Machine/Channel.lean ====
section
/-!
DEFINITION. Channels and deques of a core (R58 to R62, R255, R339, R344, R351): the channel table and the deque storage as bytes of
its scratchpad, message slots, pushes and removals, and yield requests.
-/

namespace Sys2Proof.Machine

/-! ### The channel table (R58) -/

/-- Entry c of a core's channel table. -/
def chAddr (s : State) (k ch : Nat) : Nat := scratch s k (0xD8000 + 16 * (ch % 64))

/-- The entry PC of a channel. -/
def chEpc (s : State) (k ch : Nat) : Word := physWord s (chAddr s k ch) &&& ~~~ 1#64

/-- Bytes 15:8 of a channel's entry. -/
def chWord (s : State) (k ch : Nat) : Word := physWord s (chAddr s k ch + 8)

/-- Fields of bytes 15:8. -/
def chV (w : Word) : Bool := w.getLsbD 0
def chLat (w : Word) : Bool := w.getLsbD 1
def chHold (w : Word) : Bool := w.getLsbD 2
def chReady (w : Word) : Bool := w.getLsbD 3
def chDepth (w : Word) : Nat := (w.extractLsb' 4 2).toNat
def chAoa (w : Word) : Bool := w.getLsbD 6
def chPend (w : Word) : Nat := (w.extractLsb' 8 3).toNat
def chHead (w : Word) : Nat := (w.extractLsb' 11 2).toNat
def chUsed (w : Word) : BitVec 4 := w.extractLsb' 13 4

/-- Bits lo up to lo + n − 1 of a word replaced. -/
def setField (w : Word) (lo n : Nat) (v : Nat) : Word :=
  (w &&& ~~~ (BitVec.ofNat 64 (2 ^ n - 1) <<< lo)) ||| (BitVec.ofNat 64 (v % 2 ^ n) <<< lo)

/-- Bytes 15:8 of a channel's entry written by hardware. -/
def setChWord (s : State) (k ch : Nat) (w : Word) : State := physPutNat s (chAddr s k ch + 8) 8 w.toNat

/-- The channel entry with one field replaced. -/
def setChField (s : State) (k ch lo n v : Nat) : State := setChWord s k ch (setField (chWord s k ch) lo n v)

/-- The number of set bits among the four of USED. -/
def usedCount (u : BitVec 4) : Nat := ((List.range 4).filter fun j => u.getLsbD j).length

/-- The buffered message in a slot of a channel. -/
def bufferedAt (c : Core) (ch slot : Nat) : Option Buffered := c.buffered.find? fun m => m.ch = ch && m.slot = slot

/-- A channel is eligible (R58). -/
def eligible (s : State) (k ch : Nat) : Bool :=
  let w := chWord s k ch
  chV w && chReady w && !chHold w && 0 < chPend w &&
    match bufferedAt (s.coreAt k) ch (chHead w) with
    | some m => m.cairn.isNone || m.grant.isSome
    | none => true

/-- The places reserved at a channel by messages under way to it (R255). -/
def reserved (s : State) (k ch : Nat) : Nat :=
  (s.net.filter fun t => match t with
    | .msg _ _ dst c _ _ _ => dst = k && c = ch
    | _ => false).length

/-- A channel is full (R255). -/
def channelFull (s : State) (k ch : Nat) : Bool :=
  let w := chWord s k ch
  chDepth w + 1 ≤ usedCount (chUsed w) + reserved s k ch

/-- The own-scratchpad offset of slot j of channel c (R61). -/
def msgOffset (ch slot : Nat) : Nat := 0xDC000 + 256 * ch + 64 * slot

/-- A message slot is freed: its USED bit is cleared, and PEND and HEAD stay (R255). -/
def freeMessage (m : MsgSlot) (s : State) : State :=
  let u := chUsed (chWord s m.core m.ch)
  let s := setChField s m.core m.ch 13 4 (u &&& ~~~ (1#4 <<< m.slot)).toNat
  s.modCore m.core fun c => { c with buffered := c.buffered.filter fun b => !(b.ch = m.ch && b.slot = m.slot && b.started) }

/-- The message slot of an activation, freed if there is one. -/
def freeMessage? (m : Option MsgSlot) (s : State) : State := match m with | some m => freeMessage m s | none => s

/-- The channel requests a message's implicit shared acquire at the home, once (R58). A cairn that no longer translates is not asked for,
and its message never becomes eligible. DESIGN CHOICE (log 27): the rules do not say. -/
def requestAcquire (k ch slot : Nat) (s : State) : State :=
  match bufferedAt (s.coreAt k) ch slot with
  | some m =>
    match m.cairn, m.asked with
    | some cairn, false =>
      match cairnPhys s cairn with
      | some p =>
        let s := s.modCore k fun c =>
          { c with buffered := c.buffered.map fun b => if b.ch = ch && b.slot = slot then { b with asked := true } else b }
        { s with net := s.net ++ [.acquire cairn p ⟨k, some (ch, slot)⟩ false false] }
      | none => s
    | _, _ => s
  | none => s

/-! ### Yield requests (R351) -/

/-- A core with an activation, frozen or not. -/
def Core.active (c : Core) : Bool := c.act.isSome

/-- The core whose YDL a request to core k sets: the leader's, in a caravan (R266). -/
def yieldTarget (s : State) (k : Nat) : Nat := k - (s.coreAt k).cvPos

/-- YWIN as it acts. -/
def yieldWindow (s : State) (k : Nat) : Nat := max 64 (s.clusterAt (clusterOf k)).ywin.toNat

/-- A yield request on core k: YDL := CYC + YWIN, unless one is pending (R351). -/
def raiseYield (k : Nat) (s : State) : State :=
  let t := yieldTarget s k
  s.modCore t fun c => if c.ydl = 0 then { c with ydl := s.pkg.cyc + BitVec.ofNat 64 (yieldWindow s k) } else c

/-- Core k is a reserved core or supervisor that runs a bulk activation. -/
def yieldable (s : State) (k : Nat) : Bool :=
  13 ≤ memberOf k &&
    match (s.coreAt (yieldTarget s k)).act with
    | some a => !a.lat
    | none => false

/-- The request that latency work raises (R351). -/
def latencyArrived (k : Nat) (s : State) : State := if yieldable s k then raiseYield k s else s

/-- A latency-class channel is eligible. -/
def latencyEligible (s : State) (k ch : Nat) : Bool := eligible s k ch && chLat (chWord s k ch)

/-- The request that a channel raises when it becomes eligible, which it was not in the package before. -/
def channelReady (old : State) (k ch : Nat) (s : State) : State :=
  if latencyEligible s k ch && !latencyEligible old k ch then latencyArrived k s else s

/-! ### Stores through the debug window (R223, R351) -/

/-- The offset of a sequence's record (R223). -/
def seqOff (q : Nat) : Nat := 0xDA400 + 224 * q

/-- The reserved bits of a record's first two words, which read zero (R223). -/
def sealSeq (k q : Nat) (s : State) : State :=
  let p := scratch s k (seqOff q)
  physPutNat s p 8 (physNat s p 4 % 2 ^ 22)

/-- What a store to n bytes of core k's scratchpad through the debug window leaves: the reserved bits of sequence records are zero
(R223), and a channel that it has made eligible raises its yield request (R351). -/
def windowStored (old : State) (k off n : Nat) (s : State) : State :=
  let meets (lo len : Nat) : Bool := off < lo + len && lo < off + n
  let s := ((List.range 32).filter fun q => meets (seqOff q) 8).foldl (fun s q => sealSeq k q s) s
  ((List.range 64).filter fun c => meets (0xD8000 + 16 * c) 16).foldl (fun s c => channelReady old k c s) s

/-! ### Deques (R59, R339) -/

/-- Records held. -/
def dqLen (c : Core) : Nat := c.dqBot - c.dqTop

/-- The deque is full. -/
def dqFull (c : Core) : Bool := 256 ≤ dqLen c

/-- The places of core k's deque that pushes from an outbox hold from the moment they leave it, so that none of them meets a full deque
(R341). A record that moves between cores takes its place when it is pushed. -/
def placesHeld (s : State) (k : Nat) : Nat :=
  (s.net.filter fun t => match t with
    | .push _ dst _ x => dst = k && x.origin ≠ 5
    | _ => false).length

/-- A deque has room for one more record, whatever pushes it. -/
def dequeTakes (s : State) (k : Nat) : Bool := decide (dqLen (s.coreAt k) + placesHeld s k < 256)

/-- A push under way finds room: that of an outbox in the place that it holds. -/
def pushLands (s : State) (k : Nat) (x : Carried) : Bool := if x.origin = 5 then dequeTakes s k else !dqFull (s.coreAt k)

/-- The physical address of the record at a position. -/
def dqAddr (s : State) (k p : Nat) : Nat := scratch s k (0xD8400 + 32 * (p % 256))

/-- The record at a position. -/
def dqRecord (s : State) (k p : Nat) : TaskRecord :=
  let a := dqAddr s k p
  ⟨physWord s a, physWord s (a + 8), physWord s (a + 16), physWord s (a + 24)⟩

/-- A record written at a position. -/
def dqWrite (k p : Nat) (r : TaskRecord) (s : State) : State :=
  let a := dqAddr s k p
  physPut s a (leBytes 8 r.w0.toNat ++ leBytes 8 r.w1.toNat ++ leBytes 8 r.w2.toNat ++ leBytes 8 r.w3.toNat)

/-- What hardware keeps with a record that carries nothing. -/
def Carried.plain (origin : BitVec 3) : Carried := ⟨origin, [], none, 0, none⟩

/-- What is kept with the record at a position. -/
def dqCarried (c : Core) (p : Nat) : Carried := (assocGet c.dqMeta p).getD (Carried.plain 0)

/-- The class of a record: bit 0 of its first word, and CB: bit 63 (R59). -/
def TaskRecord.lat (r : TaskRecord) : Bool := r.w0.getLsbD 0
def TaskRecord.cb (r : TaskRecord) : Bool := r.w0.getLsbD 63
def TaskRecord.epc (r : TaskRecord) : Word := r.w0 &&& 0x7FFF_FFFF_FFFF_FFFE#64

/-- A record pushed onto the bottom of core k's deque, which has room (R339, R351). -/
def pushBottom (k : Nat) (r : TaskRecord) (x : Carried) (s : State) : State :=
  let p := (s.coreAt k).dqBot
  let s := (dqWrite k p r s).modCore k fun c => { c with dqBot := p + 1, dqMeta := assocSet c.dqMeta p x }
  if r.lat then latencyArrived k s else s

/-- The records between a removed one and an end close up, by one position each (the model's own order of storage). -/
def dqShift (k : Nat) : List (Nat × Nat) → State → State
  | [], s => s
  | (dst, src) :: rest, s =>
    let r := dqRecord s k src
    let x := dqCarried (s.coreAt k) src
    dqShift k rest ((dqWrite k dst r s).modCore k fun c => { c with dqMeta := assocSet c.dqMeta dst x })

/-- The record at position p leaves; those below it close up. -/
def dqRemoveUp (k p : Nat) (s : State) : State :=
  let bot := (s.coreAt k).dqBot
  let s := dqShift k ((List.range (bot - 1 - p)).map fun j => (p + j, p + j + 1)) s
  s.modCore k fun c => { c with dqBot := bot - 1, dqMeta := assocDrop c.dqMeta (bot - 1) }

/-- The record at position p leaves; those above it close up. -/
def dqRemoveDown (k p : Nat) (s : State) : State :=
  let top := (s.coreAt k).dqTop
  let s := dqShift k ((List.range (p - top)).map fun j => (p - j, p - j - 1)) s
  s.modCore k fun c => { c with dqTop := top + 1, dqMeta := assocDrop c.dqMeta top }

/-- The positions of a deque, top first. -/
def dqPositions (c : Core) : List Nat := (List.range (dqLen c)).map (c.dqTop + ·)

/-- The bottommost record of a class. -/
def bottommost (s : State) (k : Nat) (lat : Bool) : Option Nat :=
  (dqPositions (s.coreAt k)).reverse.find? fun p => (dqRecord s k p).lat = lat

/-- The topmost bulk record that a thief may take (R337, R338). -/
def topmostBulk (s : State) (k thief : Nat) : Option Nat :=
  (dqPositions (s.coreAt k)).find? fun p =>
    let r := dqRecord s k p
    !r.lat && (!r.cb || clusterOf k = clusterOf thief)

/-- The member of lowest key, ties to the lowest number. -/
def leastBy (f : Nat → Nat) : List Nat → Option Nat
  | [] => none
  | k :: ks =>
    match leastBy f ks with
    | none => some k
    | some m => if f m < f k then some m else some k

/-- HomeCore of R344: the member 0–12 whose deque holds the fewest records. -/
def homeCore (s : State) (k : Nat) : Nat :=
  (leastBy (fun m => dqLen (s.coreAt m)) ((List.range 13).map (16 * clusterOf k + ·))).getD (16 * clusterOf k)

/-- A record that core `src` gives up, pushed onto core k's deque, or sent to wait for room there (R339): the deque is chosen when the core
gives it up, and the core goes on to its boundary. DESIGN CHOICE (log 44). -/
def pushOrWait (src k : Nat) (r : TaskRecord) (x : Carried) (s : State) : State :=
  if dequeTakes s k then pushBottom k r x s else { s with net := s.net ++ [.push src k r x] }

/-- A record that core k has given up still waits for room (R355). -/
def stillMoving (s : State) (k : Nat) : Bool := s.net.any fun t => match t with
  | .push src _ _ x => src = k && x.origin = 5
  | _ => false

/-! ### Room in the host queue (R419) -/

/-- log2 of the entry count as it acts. -/
def hqLog (p : Package) : Nat := if 6 ≤ p.hqsize.toNat ∧ p.hqsize.toNat ≤ 16 then p.hqsize.toNat else 6

/-- The entries that a message takes. -/
def hqCost (bytes : List Byte) : Nat := if 56 < bytes.length then 2 else 1

/-- The entries reserved by messages under way to the host queue. -/
def hqReserved (s : State) : Nat :=
  s.net.foldl (fun n t => match t with
    | .msg _ _ dst _ bytes _ _ => if dst = 0xFFF then n + hqCost bytes else n
    | _ => n) 0

/-- The queue has room for a message: the sum is taken modulo 2^32. While the host link is down no entry can be written, and the
message waits (log 32). -/
def hqRoom (s : State) (bytes : List Byte) : Bool :=
  s.pkg.hqen && s.pkg.linkUp &&
    decide ((s.pkg.hqtail - s.pkg.hqhead + BitVec.ofNat 32 (hqReserved s + hqCost bytes)).toNat ≤ 2 ^ hqLog s.pkg)

/-- The entry at the head of an outbox waits on a full channel or on the host queue (R255, R419, R428). -/
def headWaits (s : State) (k : Nat) : Bool :=
  match (s.coreAt k).outbox.head? with
  | some e => (match e.cargo with
    | .msg dst ch bytes => if dst = 0xFFF then !hqRoom s bytes else channelFull s dst ch
    | .msgAcq dst ch _ _ => channelFull s dst ch
    | _ => false)
  | none => false

end Sys2Proof.Machine
end

