-- ==== Sys2Proof/Machine/Ops.lean ====
section
/-!
DEFINITION. The named operations that every meaning is written over: the act of an instruction, scalar registers and their
full/empty bits (R48 to R51), committing a region (R66 to R69, R292), aborting one (R70), reaching a boundary, parking (R72, R445),
TAKING A FAULT as one shared operation (R73 to R77, R266), and retirement (R81, R433).
-/

namespace Sys2Proof.Machine

/-! ### The act of an instruction -/

/-- A fault that freezes its core (R73, R75), with what its packet carries beyond the core's own state. -/
structure Trap where
  cause : BitVec 8
  addr : Word := 0
  det1 : BitVec 32 := 0
  /-- The lane of a fault found at a lane or block (R175). -/
  lane : Option Nat := none
  /-- The fault is of the fetch: INSN is 0 (R139). -/
  fetch : Bool := false
  /-- The refused outbox entry that the packet names (R256, R348). -/
  entry : Option OutEntry := none
  /-- The line whose refused write-back is lost, and its core (R301). -/
  lost : Option (Nat × Word) := none
  /-- The object and offset whose cached translation, on which the access faulted, is dropped (R284). -/
  stale : Option (Nat × Nat) := none
  deriving DecidableEq, Repr

/-- Why an instruction does not retire. -/
inductive Stop where
  /-- It faults. -/
  | trap (t : Trap)
  /-- It touches a non-resident extent at this address (R72); the cached translation to drop (R284). -/
  | park (addr : Word) (stale : Option (Nat × Nat))
  /-- It reads a block that holds an uncorrectable error (R71): physical block, address, and the lane that reads it (R175). -/
  | ecc (block : Nat) (addr : Word) (lane : Option Nat)
  /-- It waits at issue, for the reason code of R428, or 0 where that table names none. -/
  | stall (why : BitVec 8)
  /-- It waits for its own region's posted atomics: the region commits now, and the instruction waits on, for a reason code of R428 or
  0 (R67, R152). -/
  | commitFirst (why : BitVec 8)
  deriving DecidableEq, Repr

/-- What an instruction does to the package, or why it does not retire. -/
abbrev Act := StateT State (Except Stop)

/-- The instruction stops here, without effect. -/
def stop {α : Type} (e : Stop) : Act α := fun _ => .error e

/-- The instruction faults with a cause, an address and a detail (R75). -/
def fault {α : Type} (cause : BitVec 8) (addr : Word := 0) (det1 : BitVec 32 := 0) : Act α :=
  stop (.trap { cause := cause, addr := addr, det1 := det1 })

/-- Cause 0x01. -/
def illegal {α : Type} : Act α := fault 0x01

/-- A check that must hold. -/
def require (ok : Bool) (e : Stop) : Act Unit := if ok then pure () else stop e

/-- Something of the core whose turn it is. -/
def ask {α : Type} (f : Core → α) : Act α := fun s => .ok (f s.core, s)

/-- The core whose turn it is, changed. -/
def change (f : Core → Core) : Act Unit := fun s => .ok ((), { s with core := f s.core })

/-- Something of the package. -/
def askS {α : Type} (f : State → α) : Act α := fun s => .ok (f s, s)

/-- The package, changed. -/
def changeS (f : State → State) : Act Unit := fun s => .ok ((), f s)

/-- A free value drawn from the counter. -/
def drawFree : Act Nat := fun s => .ok (s.nfree, { s with nfree := s.nfree + 1 })

/-- The cached translation of an address, as a name for what a failed access drops (R284). -/
def staleAt (s : State) (addr : Word) : Option (Nat × Nat) :=
  (cached (s.clusterAt (clusterOf s.cid)).tc (objId addr) (objOff addr)).map fun _ => (objId addr, objOff addr)

/-- The stop of a failed translation (R282). -/
def xstop (f : XFail) (addr : Word) (stale : Option (Nat × Nat)) : Stop :=
  match f with
  | .invalid r => .trap { cause := 0x06, addr := addr, det1 := BitVec.ofNat 32 r, stale := stale }
  | .bounds => .trap { cause := 0x04, addr := addr, stale := stale }
  | .permission => .trap { cause := 0x05, addr := addr, stale := stale }
  | .nonResident => .park addr stale

/-- The instruction stops on a failed translation of an address. -/
def xfail {α : Type} (f : XFail) (addr : Word) : Act α := fun s => .error (xstop f addr (staleAt s addr))

/-- The trap of an access to a home that does not answer: cause 0x0C, DET1 2 for a package, 3 for the host link (R427). -/
def lostHome (phys : Nat) (addr : Word) : Trap :=
  { cause := 0x0C, addr := addr, det1 := if kindOf phys = 3 then 3 else 2 }

/-- A trap with a lane added: DET1 keeps the details of causes 0x05 and 0x06 (R175). -/
def Trap.atLane (t : Trap) (i : Nat) : Trap :=
  { t with lane := some i, det1 := if (t.cause = 0x05 || t.cause = 0x06 || t.cause = 0x0C) && t.det1 ≠ 0 then t.det1 else BitVec.ofNat 32 i }

/-- The traps of an act with a lane added (R175). -/
def atLane {α : Type} (i : Nat) (m : Act α) : Act α := fun s =>
  match m s with
  | .error (.trap t) => .error (.trap (t.atLane i))
  | .error (.ecc b a _) => .error (.ecc b a (some i))
  | .error e => .error e
  | .ok r => .ok r

/-- An act for each member of a list, in order. -/
def each {α : Type} (f : α → Act Unit) : List α → Act Unit
  | [] => pure ()
  | x :: xs => do f x; each f xs

/-- An act for each member of a list, in order, with its results. -/
def collect {α β : Type} (f : α → Act β) : List α → Act (List β)
  | [] => pure []
  | x :: xs => do
    let y ← f x
    let ys ← collect f xs
    pure (y :: ys)

/-- The trap of a write-back that its home refuses (R301). -/
def refusedBack (k : Nat) (l : Line) : Trap := { cause := 0x0C, addr := l.addr, lost := some (k, l.addr) }

/-- A physical block is readable: its home answers (R427) and it holds no uncorrectable error (R71). -/
def readable (p : Nat) (a : Word) : Act Unit := fun s =>
  if !reachable s p then .error (.trap (lostHome p a))
  else if s.ecc.contains (blockOf p) then .error (.ecc (blockOf p) a none)
  else .ok ((), s)

/-- The trap of a surrender told to a home that does not take it (R301, R427). -/
def surrenderRefused (s : State) (p : Nat) (a : Word) : Option Trap :=
  if !reachable s p then some (lostHome p a)
  else if s.ecc.contains (blockOf p) then some { cause := 0x0C, addr := a }
  else none

/-- The home of a cairn takes what it would be told as a surrender. -/
def mayTell (a : Word) (p : Nat) : Act Unit := fun s =>
  match surrenderRefused s p a with
  | some t => .error (.trap t)
  | none => .ok ((), s)

/-- No write-back of committed lines that satisfy a test would be refused by its home (R301). -/
def noRefusal (p : Line → Bool) : Act Unit := fun s =>
  match refusedLine s.cid p s with
  | some l => .error (.trap (refusedBack s.cid l))
  | none => .ok ((), s)

/-! ### Core predicates -/

/-- A core whose instruction in issue has retired, or begins anew: nothing is kept of it. -/
def Core.settled (c : Core) : Core := { c with committed := false, noAbort := false, image := [], trapsDue := none }

/-- The instruction in issue has committed, and no abort comes before it has retired (R146, R235, R403). -/
def Core.mustRetire (c : Core) : Bool := c.committed && c.noAbort

/-- The phase in which a core goes on with its instructions: a follower's, in a caravan (R264). -/
def Core.ready (c : Core) : Phase := if c.cvPos = 0 then .run else .follower

/-- The address after the instruction in issue: a pair advances by 8 (R81). -/
def Core.next (c : Core) : Word :=
  c.pc + (if c.pfx.isSome then 8#64 else if c.insn.getLsbD 0 then 4#64 else 2#64)

/-- A core is frozen (R73), a stopped one too (R434). -/
def Core.isFrozen (c : Core) : Bool := c.phase = .frozen || c.phase = .stopped

/-! ### The repetition sequencer's view of registers (R65, R219) -/

/-- RepName of R65. -/
def repName (r : Rep) (k i : Nat) : Nat :=
  if r.base ≤ k && k < r.base + r.size then r.base + (k - r.base + i * r.stag) % r.size else k

/-- The register that a vector field of the instruction in issue names: renamed when the sequencer issues it. -/
def Core.vname (c : Core) (k : Nat) : Nat :=
  match c.repAt with
  | some (i, _) => repName c.rep k i
  | none => k

/-- The sequencer issues, and the register is in the footprint of its REPX: it neither waits nor freezes on it (R219). -/
def Core.repOwns (c : Core) (vector : Bool) (k : Nat) : Bool :=
  c.repAt.isSome && c.rep.footprint.any fun f => f.vector = vector && f.reg = k

/-! ### Scalar registers (R47 to R51) -/

/-- The value of a scalar register; s0 reads zero. -/
def Core.s (c : Core) (k : Nat) : Word := if k = 0 then 0 else c.sregs.toList.getD k 0

/-- A scalar register is full; s0 always is. -/
def Core.isFull (c : Core) (k : Nat) : Bool := k = 0 || c.sfull.getLsbD k

/-- A scalar register's value replaced, its bit kept; a write to s0 is discarded. -/
def Core.putS (c : Core) (k : Nat) (v : Word) : Core :=
  if k = 0 then c else { c with sregs := c.sregs.setIfInBounds k v }

/-- A bit of a 32-bit set. -/
def bitSet (m : BitVec 32) (k : Nat) : BitVec 32 := m ||| (1#32 <<< k)
def bitClear (m : BitVec 32) (k : Nat) : BitVec 32 := m &&& ~~~ (1#32 <<< k)

/-- A scalar register written and full; a write to s0 is discarded. -/
def Core.setS (c : Core) (k : Nat) (v : Word) : Core :=
  if k = 0 then c else { c with sregs := c.sregs.setIfInBounds k v, sfull := bitSet c.sfull k }

/-- A scalar register marked empty; s0 is always full. -/
def Core.emptyS (c : Core) (k : Nat) : Core := if k = 0 then c else { c with sfull := bitClear c.sfull k }

/-- Every register is full. -/
def Core.allFull (c : Core) : Bool := c.sfull = BitVec.allOnes 32 && c.vfull = BitVec.allOnes 32

/-- The reason code of R428 for a wait on an empty register: that of a load or MRD, or of an expert request; for one that REPX has
emptied the table lists none. -/
def Core.emptyReason (c : Core) (vector : Bool) (k : Nat) : BitVec 8 :=
  let names (f : Inflight) : Bool :=
    if vector then f.vdest.any (·.1 = k) else match f.sdest with
      | some (d, _) => d = k
      | none => false
  if c.inflight.any names then 0x40
  else if !vector && (match c.exroute with
    | some (d, _) => d = k
    | none => false) then 0x41
  else 0

/-- The reason code of a wait until every register is full. -/
def Core.fillReason (c : Core) : BitVec 8 := if !c.inflight.isEmpty then 0x40 else if c.exroute.isSome then 0x41 else 0

/-- ReadOperand of R50 for a scalar register. -/
def readS (r : BitVec 5) (t : BitVec 1) : Act Word := fun s =>
  if s.core.isFull r.toNat || s.core.repOwns false r.toNat then .ok (s.core.s r.toNat, s)
  else if t = 1 then .error (.trap { cause := 0x02 })
  else .error (.stall (s.core.emptyReason false r.toNat))

/-- The scalar sources of the captured instructions of the sequence that runs (R220). -/
def repSource (c : Core) (k : Nat) : Bool :=
  k ≠ 0 && c.rep.state = 2 && c.repAt.isNone && c.rep.cap.any fun x => (x.instr.elim [] scalarSources).contains k
where
  /-- Fields of a capturable instruction that name scalar sources (R96, R100). -/
  scalarSources (i : Instr) : List Nat :=
    match i with
    | .fadd o | .fsub o | .fmul o | .ffma o | .ffms o | .fnma o | .fdiv o | .fmin o | .fmax o | .fcpys o
    | .iadd o | .isub o | .imul o | .imulh o | .imulhu o | .iand o | .ior o | .ixor o | .ishl o | .ishr o | .isar o
    | .imin o | .imax o | .iadds o | .isubs o | .iminu o | .imaxu o
    | .fceq o | .fclt o | .fcle o | .fcun o | .fcne o | .iceq o | .iclt o | .icltu o | .icne o | .perm o =>
      if o.bs = 1 then [o.vb.toNat] else []
    | .vgath o | .vscat o => if o.bs = 1 then [o.va.toNat, o.vb.toNat] else [o.va.toNat]
    | .cvts o => [o.va.toNat]
    | .bcast o | .iota o => [o.va.toNat]
    | .xtr o | .slide o => [o.vb.toNat]
    | .ins o | .vld o | .vst o | .vlds o | .vsts o | .vldt o => [o.va.toNat, o.vb.toNat]
    | .vtag o => [o.va.toNat]
    | .vstag o => [o.va.toNat, o.vb.toNat]
    | .mma o | .mst o => [o.va.toNat, o.vb.toNat]
    | .mld o | .dqnt o | .ctld o | .mcfgMode o | .mcfgScale o => [o.va.toNat]
    | .mrd o | .mwr o | .qnt o | .pack o | .rng o => [o.vb.toNat]
    | .unpk o => [o.va.toNat, o.vb.toNat]
    | _ => []

/-- An instruction whose destination is empty waits at issue (R51), and so does a scalar write to a source of the running
sequence (R220). -/
def awaitS (d : BitVec 5) : Act Unit := fun s =>
  if !(s.core.isFull d.toNat || s.core.repOwns false d.toNat) then .error (.stall (s.core.emptyReason false d.toNat))
  else if repSource s.core d.toNat then .error (.stall 0)
  else .ok ((), s)

/-- A scalar result written at retirement. -/
def writeS (d : BitVec 5) (v : Word) : Act Unit := change fun c =>
  if c.repOwns false d.toNat then c.putS d.toNat v else c.setS d.toNat v

/-- A scalar source read after its destination is seen full: the order of R50 and R51 for one source. -/
def readSD (d a : BitVec 5) (t : BitVec 1) : Act Word := do
  let x ← readS a t
  awaitS d
  pure x

/-! ### Freezing (R73, R74, R77) -/

/-- A follower of a broken caravan that has still to reach its boundary (R266). -/
def Core.lone (c : Core) : Bool := c.orphan && c.act.isNone

/-- A core serves an activation: its own, that of the caravan that it follows in, or that of a broken one whose region it still has (R265,
R266). -/
def Core.serves (c : Core) : Bool := c.act.isSome || c.cvPos ≠ 0 || c.lone

/-- The packet of a fault of the core whose turn it is (R74, R222, R256). A caravan follower has a region but no activation, in its
caravan and until it has left a broken one: its packet carries its RPC (R265), and 0 in TAG and EPC. DESIGN CHOICE (log 18): the zeros. A refused
entry has come from an activation that has ended, unless the core still serves the one that issued it, as a follower too. -/
def packetOf (t : Trap) (s : State) : Packet :=
  let c := s.core
  let at_ := match c.repAt with
    | some (i, p) => c.rep.cap[p]?.map fun (x : Captured) => (x.pc, BitVec.ofNat 64 (i % 2 ^ 16 + p % 32 * 2 ^ 16) ||| (1#64 <<< 63))
    | none => none
  let stale := match t.entry with
    | some e => !(c.serves && c.actNo = e.by_.actNo)
    | none => false
  { core := s.cid
    cause := t.cause
    flags := if stale then 0x11 else 0x01
    insn := match t.entry with
      | some e => e.by_.insn
      | none => if t.fetch then 0 else c.insn
    pc := match t.entry with
      | some e => e.by_.pc
      | none => match at_ with
        | some (pc, _) => pc
        | none => c.pc
    rpc := if c.serves then c.rpc else 0
    addr := t.addr
    tag := match t.entry with
      | some e => e.by_.tag
      | none => match c.act with
        | some a => a.tag
        | none => 0
    member := 0
    det1 := t.det1
    epc := match t.entry with
      | some e => e.by_.epc
      | none => match c.act with
        | some a => a.epc
        | none => 0
    cyc := s.pkg.cyc
    det2 := (match t.lane with
      | some i => BitVec.ofNat 64 (i % 256 * 2 ^ 32) ||| (1#64 <<< 62)
      | none => 0) |||
      (match at_ with
      | some (_, w) => w
      | none => 0) }

/-- A wait that goes on while its core is frozen: another agent has been told of it, and may end it (R73, R270, R310, R384, R445), or it is
the core's own way to a boundary (R266). An instruction in any other has done nothing yet and executes anew (R78). DEDUCED (log 19). -/
def Wait.outlasts (w : Wait) : Bool :=
  match w with
  | .acquire .. | .crest .. | .expert | .parkEntry .. | .leave => true
  | .sleep .. | .mwait | .waitt .. => false

/-- A core frozen: its sequencer stops with it, and a wait that may still end is kept. -/
def Core.freeze (c : Core) : Core :=
  { c with
    phase := .frozen
    frozenWait := match c.phase with
      | .wait w => (some w).filter Wait.outlasts
      | .frozen => c.frozenWait
      | _ => none
    frozenEntry := false
    rep := if c.rep.state = 2 then { c.rep with state := 3 } else c.rep }

/-- A fault packet waits in its core to be sent (R76). -/
def queuePacket (k : Nat) (p : Packet) (s : State) : State := s.modCore k fun c => { c with packets := c.packets ++ [p] }

/-- The record of a freeze, written to the ring before the packet is sent (R429, R431). -/
def traceFreeze (k : Nat) (s : State) : State := traceFlush k (traceChange k 0 0x02 s.pkg.cyc s)

/-- A freezing fault of a mesa command core freezes every core and interrupts the host (R77, R415). A core already frozen stays as it
is. A caravan stays formed, with every member frozen, and goes on where it stood when all are resumed: R266 breaks one for a fault of a
member. DESIGN CHOICE (log 22). -/
def packageFreeze (s : State) : State :=
  let s := (List.range 3072).foldl (fun s k =>
    if (s.coreAt k).isFrozen then s else (traceFreeze k s).modCore k fun c => { c.freeze with frozenCause := 0 }) s
  s.modPkg fun p => { p with pkfrz := true, msix := p.msix ||| 2 }

/-- The members of the caravan that a core belongs to, leader first. -/
def caravan (s : State) (k : Nat) : List Nat :=
  let c := s.coreAt k
  (List.range c.cvSize).map (k - c.cvPos + ·)

/-- A caravan breaks on the fault of the core whose turn it is: every member freezes, and the leader sends one packet (R266). A member
that waits keeps its wait, which may still end (R73, R270). Followers issue in the order of their positions, so that the member that
faults is the lowest-positioned one of those that fault on the instruction. RPC, TAG and EPC are the leader's, as is CORE: R266 names only
CORE, MEMBER, DET1 and DET2. DESIGN CHOICE (log 20). Of a refused entry, TAG and EPC name the activation that issued it (R256). -/
def breakCaravan (entry : Bool) (p : Packet) (s : State) : State :=
  let k := s.cid
  let lead := k - s.core.cvPos
  let size := s.core.cvSize
  let l := s.coreAt lead
  let packet : Packet :=
    { p with
      core := lead
      cause := 0x0D
      flags := 0x05 ||| (p.flags &&& 0x10)
      rpc := l.rpc
      tag := if entry then p.tag else match l.act with
        | some a => a.tag
        | none => 0
      epc := if entry then p.epc else match l.act with
        | some a => a.epc
        | none => 0
      member := BitVec.ofNat 16 k
      det1 := p.cause.setWidth 32
      det2 := BitVec.ofNat 64 (size % 16 + s.core.cvPos % 8 * 16) }
  let s := (caravan s k).foldl (fun s m => (traceFreeze m s).modCore m fun c =>
    { c.freeze with cvPos := 0, cvSize := 0, followers := [], frozenCause := 0x0D, orphan := c.cvPos ≠ 0 }) s
  queuePacket lead packet s

/-- The core whose turn it is freezes and its packet waits to be sent; a wait of its instruction is kept. The region stays open and
RPC is kept (R73). A fault of a caravan member breaks the caravan (R266), one of a mesa command core freezes the package (R77). -/
def freezeOn (t : Trap) (s : State) : State :=
  let p := packetOf t s
  if s.core.cvSize ≠ 0 then (breakCaravan t.entry.isSome p s).modCore s.cid fun c => { c with frozenEntry := t.entry.isSome }
  else
    let s := traceFreeze s.cid s
    let s := queuePacket s.cid p
      { s with core := { s.core.freeze with repAt := none, frozenCause := t.cause, frozenEntry := t.entry.isSome } }
    if isCommand s.cid then packageFreeze s else s

/-- The instruction in issue of the core whose turn it is waits no longer. Where that is the sequencer's, the scalar pipeline's wait
stands (R222). -/
def State.noWait (s : State) : State :=
  match s.core.phase with
  | .wait _ => if s.core.repAt.isSome then s else { s with core := { s.core with phase := s.core.ready } }
  | _ => s

/-- TAKING A FAULT: the instruction in issue faults, and the core freezes on it. -/
def takeFault (t : Trap) (s : State) : State := freezeOn t s.noWait

/-! ### Boundaries (R56, R434) -/

/-- An activation boundary: no activation, no yield request, no monitor (R324, R351). -/
def reachBoundary (s : State) : State :=
  { s with
    core := { s.core.settled with
      phase := .boundary
      act := none
      ydl := 0
      lastEcc := none
      closing := none
      spared := false
      orphan := false }
    monitors := s.monitors.filter (·.core ≠ s.cid) }

/-- A follower's caravan fields cleared. -/
def Core.leaveCaravan (c : Core) : Core := { c with cvPos := 0, cvSize := 0, followers := [] }

/-! ### Aborts (R70, R71) -/

/-- A vector register whose contents the manual leaves unspecified: 128 free values from number n on. -/
def freeReg (n : Nat) : VReg := Vector.ofFn fun i => (Config.freeWord (n + i.val)).setWidth 32

/-- Every destination of a cancelled producer becomes full with free values. -/
def cancelInflight (n : Nat) : List Inflight → Core → Core
  | [], c => { c with inflight := [] }
  | f :: fs, c =>
    let c := match f.sdest with
      | some (d, _) => c.setS d (Config.freeWord n)
      | none => c
    let c := f.vdest.foldl (fun (c : Core) d =>
      { c with vregs := c.vregs.setIfInBounds d.1 (freeReg (n + 1 + 128 * d.1)), vfull := bitSet c.vfull d.1 }) c
    cancelInflight (n + 4200) fs c

/-- A footprint register of a stopped sequence becomes full again: with its last value where its last writing iteration has
completed, with its value at REPX where none had begun to write it, and with a free value between (R70). -/
def stopFootprint (n : Nat) (at_ : Nat × Nat) (c : Core) (f : Footprint) : Core :=
  let before (a b : Nat × Nat) : Bool := a.1 < b.1 || (a.1 = b.1 && a.2 < b.2)
  let done := decide (f.last.1 < at_.1)
  let untouched := !before f.first at_
  if f.vector then
    { c with
      vfull := bitSet c.vfull f.reg
      vregs := if done || untouched then c.vregs else c.vregs.setIfInBounds f.reg (freeReg (n + 1 + 128 * f.reg)) }
  else if done || untouched then { c with sfull := bitSet c.sfull f.reg }
  else c.setS f.reg (Config.freeWord (n + f.reg))

/-- The sequencer stopped by an abort: REPST.STATE 0, the capture discarded (R70). -/
def stopRep (n : Nat) (c : Core) : Core :=
  let c := if c.rep.state = 2 || c.rep.state = 3 then c.rep.footprint.foldl (stopFootprint n (c.rep.iter, c.rep.pos)) c else c
  { c with rep := { c.rep with state := 0, cap := [], footprint := [] }, repAt := none }

/-- The abort of R70 on one core. An outstanding EXROUTE is not repeated: the region restarts after it (R384). -/
def Core.abort (n : Nat) (c : Core) : Core :=
  let c := stopRep (n + 4200) (cancelInflight (n + 8400) c.inflight c)
  { c.settled with
    lines := c.lines.filter fun l => !l.unc
    outbox := c.outbox.filter (·.committed)
    rpc := match c.exroute with
      | some (_, next) => next
      | none => c.rpc
    followers := []
    closing := none
    aborts := if c.aborts = BitVec.allOnes 16 then c.aborts else c.aborts + 1 }

/-- A fault that would replay or park an activation freezes instead: in a caravan (R266), in a follower of a broken one, which has no
activation (log 20), and where a supervisor command awaits the instruction's retirement (log 19). -/
def Core.mustFault (c : Core) : Bool := c.cvSize ≠ 0 || c.closing.isSome || c.lone

/-- The numbers of free values that an abort may use. -/
def abortDraws : Nat := 2 ^ 20

/-- What the core's instruction waits for, frozen or not. -/
def Core.waiting (c : Core) : Option Wait :=
  match c.phase with
  | .wait w => some w
  | .frozen => c.frozenWait
  | _ => none

/-- A packet that asks for or grants a cairn to a core, no message's. -/
def asksFor (cairn : Word) (core : Nat) (t : Transit) : Bool :=
  match t with
  | .acquire k _ party _ _ => k = cairn && party.core = core && party.msg.isNone
  | .surrender k _ _ party _ _ => k = cairn && party.core = core && party.msg.isNone
  | _ => false
def grantsTo (cairn : Word) (core : Nat) (t : Transit) : Bool :=
  match t with
  | .grant k _ c st _ => k = cairn && c = core && st = 0
  | _ => false

/-- A queued request of a core, no message's. -/
def Waiter.isOf (cairn : Word) (core : Nat) (w : Waiter) : Bool := w.cairn = cairn && w.party.core = core && w.party.msg.isNone

/-- The cairn that a packet to or from a home is about. -/
def Transit.cairnAt (t : Transit) : Option Nat :=
  match t with
  | .acquire _ p _ _ _ | .surrender _ p _ _ _ _ | .grant _ p _ _ _ => some p
  | _ => none

/-- Where a core's request for a cairn stands: queued, on its way, or granted on the way back; it went by the translation of its time. -/
def requestedAt (s : State) (cairn : Word) (core : Nat) : Option Nat :=
  ((s.waiters.find? (·.isOf cairn core)).map (·.phys)).orElse fun _ =>
    (s.net.find? fun t => asksFor cairn core t || grantsTo cairn core t).bind Transit.cairnAt

/-- A queued acquire of an aborted instruction is withdrawn at the home that has it (R310). -/
def withdrawAcquire (s : State) : State :=
  match s.core.waiting with
  | some (.acquire cairn _ _ _ _) =>
    match requestedAt s cairn s.cid with
    | some p => { s with net := s.net ++ [.withdraw cairn p s.cid] }
    | none => s
  | _ => s

/-- The abort of R70 on the core whose turn it is: its region restarts at RPC. -/
def abortRegion (s : State) : State :=
  let s := withdrawAcquire s
  { s with core := { s.core.abort s.nfree with pc := (s.core.abort s.nfree).rpc, phase := s.core.ready, frozenWait := none }, nfree := s.nfree + abortDraws }

/-- An uncorrectable error read by the region: abort and replay, or cause 0x0C on repeat (R71). The abort waits for the answer of an
EXROUTE (R384). Where no replay may come, it faults at once. -/
def takeEcc (block : Nat) (addr : Word) (lane : Option Nat) (s : State) : State :=
  let t : Trap := match lane with
    | some i => Trap.atLane { cause := 0x0C, addr := addr } i
    | none => { cause := 0x0C, addr := addr }
  if s.core.mustFault || s.core.lastEcc = some block then takeFault t s
  else if s.core.exroute.isSome then { traceHold s.cid 0x41 s with held := true }
  else
    let s := abortRegion s
    { s with core := { s.core with lastEcc := some block } }

/-! ### Holds (R312, R313) -/

/-- Every hold of the activation ends as by REL (R313). -/
def endHolds (s : State) : State :=
  (List.range 8).foldl (fun s n =>
    if (s.core.slot n).hold = .none then s
    else
      match cairnPhys s (s.core.slot n).cairn with
      | some p => releaseSlot s.cid n p s
      | none => modSlot s.cid n (fun x => { x with hold := .none }) s) s

/-- A follower's part in its caravan ends with the abort of R70: its holds end as at DONE, and it reaches a boundary (R266, R313). -/
def dropFollower (s : State) : State := reachBoundary (endHolds (abortRegion { s with core := s.core.leaveCaravan }))

/-- The holds of core k pass out of its slots: every slot's committed lines are written back and each home is told as a
surrender (R313). -/
def passHolds (s : State) : List PassedHold × State :=
  (List.range 8).foldl (fun (acc : List PassedHold × State) n =>
    let s := acc.2
    let x := s.core.slot n
    if !x.valid then acc
    else
      let s := writeBackAll s.cid (fun l => l.slot = some n) s
      let s := match cairnPhys s x.cairn with
        | some p => tellSurrender s.cid n p s
        | none => s
      if x.hold = .none then (acc.1, s)
      else
        (acc.1 ++ [{ cairn := x.cairn, exclusive := x.hold = .exclusive, epoch := (s.core.slot n).epoch, wait := x.wait,
                     loc := false, by_ := s.cid }],
         modSlot s.cid n (fun x => { x with hold := .none, wait := false }) s)) ([], s)

/-- A passed hold released as by REL, on behalf of the core that the home records; its lines have been written back where it passed
(R312, R313). -/
def releasePassed (h : PassedHold) (s : State) : State :=
  match cairnPhys s h.cairn with
  | some p =>
    if homeTakes s p && (h.wait || (!h.exclusive && cairnMode s p = 3 && 1 < cairnCount s p)) then homeRelease p h.by_ true 0 (addHcnt p s)
    else homeRelease p h.by_ false 0 s
  | none => s

/-- Passed holds released as at DONE (R445 DROP, KILL). -/
def releaseAllPassed (hs : List PassedHold) (s : State) : State := hs.foldl (fun s h => releasePassed h s) s

/-- What passing the holds on would lose: a line whose write-back its home refuses, or a cairn whose home does not take the surrender
(R301, R313). -/
def passRefused (s : State) : Option Trap :=
  (List.range 8).findSome? fun n =>
    let x := s.core.slot n
    if !x.valid then none
    else match refusedLine s.cid (fun l => l.slot = some n) s with
      | some l => some (refusedBack s.cid l)
      | none => (cairnPhys s x.cairn).bind fun p => surrenderRefused s p x.cairn

/-! ### Releases at an activation's end (R312, R313) -/

/-- A release that is told to the home needs its answer (R71, R312, R427). -/
def homeAnswers (n p : Nat) : Act Unit := do
  let x ← ask fun c => c.slot n
  if x.tells then readable p x.cairn

/-- The checks of a release of slot n's hold after its commit: the home's answer, and that it refuses no eager write-back (R301). -/
def mayRelease (n p : Nat) : Act Unit := do
  homeAnswers n p
  if ← askS fun s => (s.core.slot n).tells && releaseEager s (s.core.slot n) p then noRefusal fun l => l.slot = some n

/-- The checks of the releases of an activation's holds, as by REL (R313). -/
def holdsRelease : Act Unit := do
  each (fun n => do
    let x ← ask fun c => c.slot n
    match ← askS fun s => cairnPhys s x.cairn with
    | some p => if x.hold ≠ .none then mayRelease n p
    | none => pure ()) (List.range 8)

/-! ### Parking (R72, R445) -/

/-- A line whose write-back its home has refused leaves L1: the refused bytes are lost (R301). -/
def loseLine (x : Option (Nat × Word)) (s : State) : State :=
  match x with
  | some (k, a) => s.modCore k fun c => { c with lines := dropLine c.lines a }
  | none => s

/-- The cluster-window address of a message slot: space 2, member, offset (R72). -/
def windowAddr (m : MsgSlot) : Word :=
  BitVec.ofNat 64 (2 ^ 63 + 2 * 2 ^ 60 + memberOf m.core * 2 ^ 20 + msgOffset m.ch m.slot)

/-- The continuation of an aborted activation: RPC, class, CB and s1 to s3, s1 rewritten for a message (R72, R353). The rules say the
rewriting of a channel activation; an activation that a continuation started and that still keeps the slot is treated alike.
DESIGN CHOICE (log 36). -/
def continuation (c : Core) : TaskRecord :=
  let lat := match c.act with
    | some a => a.lat
    | none => false
  let m := match c.act with
    | some a => a.msg
    | none => none
  let w0 := (c.rpc &&& 0x7FFF_FFFF_FFFF_FFFE#64) ||| (if lat then 1 else 0) ||| (if m.isSome then 1#64 <<< 63 else 0)
  let s1 := match m with
    | some m => windowAddr m
    | none => c.s 1
  ⟨w0, s1, c.s 2, c.s 3⟩

/-- The informational packet of a park, as its fault finds the core; the park number is yet to come (R74). -/
def parkPacket (rec : TaskRecord) (addr : Word) (s : State) : Packet :=
  { packetOf { cause := 0x07, addr := addr } s with
    flags := 0x02
    pc := s.core.rpc
    det1 := BitVec.ofNat 32 ((if rec.lat then 1 else 0) + (if rec.cb then 2 else 0))
    det2 := rec.epc }

/-- The packet with its park number (R74, R445). -/
def Packet.numbered (no : Nat) (p : Packet) : Packet := { p with det1 := p.det1 ||| BitVec.ofNat 32 (no % 16 * 256) }

/-- The lowest free park entry. -/
def freePark (c : Core) : Option Nat := (List.range 16).find? fun n => (c.park.toList.getD n none).isNone

/-- A continuation takes a park entry, and the supervisor is told (R72, R445). -/
def fillPark (no : Nat) (rec : TaskRecord) (holds : List PassedHold) (msg : Option MsgSlot) (p : Packet) (s : State) : State :=
  let s := queuePacket s.cid (p.numbered no) s
  reachBoundary { s with core := { s.core with
    park := s.core.park.setIfInBounds no (some ⟨holds, msg⟩)
    parkRec := rec
    parkNo := BitVec.ofNat 4 no } }

/-- A core that waits for a park entry takes the lowest free one, if there is one (R445). Its packet is that of the park, with the CYC of
that time (R74). -/
def takeFreedEntry (s : State) : State :=
  match s.core.phase, freePark s.core with
  | .wait (.parkEntry task holds msg p), some no => fillPark no task holds msg p s
  | _, _ => s

/-- An informational packet of a core waits (R76). -/
def infoWaits (c : Core) : Bool := c.packets.any fun p => !p.flags.getLsbD 0

/-- PARKING on a non-resident extent (R72). A core whose earlier informational packet still waits stalls instead (R76). A caravan
breaks (R266), and an instruction whose retirement a supervisor command awaits faults (log 19). A write-back or surrender that its home
refuses is reported instead (R301). With every park entry taken the core waits for one, as idle as a frozen core (R445). -/
def takePark (addr : Word) (s : State) : State :=
  if s.core.mustFault then takeFault { cause := 0x07, addr := addr } s
  else if infoWaits s.core then { traceHold s.cid 0x34 s with held := true }
  else if s.core.exroute.isSome then { traceHold s.cid 0x41 s with held := true }
  else match passRefused s with
  | some t => takeFault t (loseLine t.lost s)
  | none =>
    let msg := match s.core.act with
      | some a => a.msg
      | none => none
    let no := freePark s.core
    let old := s
    let s := abortRegion s
    let task := continuation s.core
    let p := parkPacket task addr old
    let r := passHolds s
    match no with
    | some no => fillPark no task r.1 msg p r.2
    | none =>
      traceChange s.cid 0 0x02 s.pkg.cyc
        { r.2 with core := { r.2.core with phase := .wait (.parkEntry task r.1 msg p), pc := s.core.rpc } }

/-! ### Retirement (R81, R433) -/

/-- The activation that the core whose turn it is serves: in a caravan, its leader's (R265). -/
def State.serving (s : State) : Option Activation := (s.coreAt (s.cid - s.core.cvPos)).act

/-- The TAG condition of a breakpoint holds of an activation (R433). -/
def tagMatches (act : Option Activation) (t : BitVec 10) : Bool :=
  !t.getLsbD 9 || match act with
    | some a => a.tag = t.extractLsb' 0 9
    | none => false

/-- The hardware breakpoint of a core that an instruction at an address fires, lowest first, in an activation that it serves. -/
def breakHit (c : Core) (act : Option Activation) (pc : Word) : Option Nat :=
  [0, 1].find? fun n =>
    let b := c.bppc.toList.getD n 0
    b.getLsbD 0 && (b &&& ~~~ 1#64) = pc && tagMatches act (c.bptag.toList.getD n 0)

/-- The trap of hardware breakpoint n (R433). -/
def breakTrap (n : Nat) : Trap := { cause := 0x0A, det1 := BitVec.ofNat 32 (1 + n) }

/-- The freeze of a hardware breakpoint at a retired instruction's address (R433). A core that has been frozen while its instruction waited
stays frozen as it is, and sends the packet. DEDUCED (log 22). -/
def breakAfter (old : Word) (s : State) : State :=
  match breakHit s.core s.serving old with
  | some n =>
    if s.core.isFrozen && s.core.cvSize = 0 then queuePacket s.cid (packetOf (breakTrap n) s) s else takeFault (breakTrap n) s
  | none => s

/-- The instruction in issue retires and control goes to an address. An instruction of the sequencer moves nothing. -/
def retireTo (target : Word) : Act Unit := fun s =>
  if s.core.repAt.isSome then .ok ((), s)
  else
    let old := s.core.pc
    .ok ((), breakAfter old { s with core := { s.core.settled with pc := target, phase := s.core.ready } })

/-- The instruction in issue retires and control goes to the next. -/
def retire : Act Unit := fun s => retireTo s.core.next s

/-- An instruction that has waited retires, and its wait ends in the trace; a core frozen meanwhile stays frozen (R73, R429). -/
def endWait (commit : Bool) (s : State) : State :=
  let old := s.core.pc
  let to_ := s.core.next
  let s := if s.core.phase = .frozen then s else traceIssue s.cid s
  let c : Core := { s.core.settled with pc := to_, rpc := if commit then to_ else s.core.rpc }
  if c.phase = .frozen then breakAfter old { s with core := { c with frozenWait := none } }
  else breakAfter old { s with core := { c with phase := c.ready } }

/-- Something done by core k, the core whose turn it is put back afterwards. -/
def onCore (k : Nat) (f : State → State) (s : State) : State := (f (s.focus k)).focus s.cid

/-- A commit point retires: a new region opens at the following instruction (R67). -/
def retireCommit : Act Unit := fun s =>
  let old := s.core.pc
  let to_ := s.core.next
  if s.core.repAt.isSome then .ok ((), { s with core := s.core.settled })
  else .ok ((), breakAfter old { s with core := { s.core.settled with pc := to_, rpc := to_, phase := s.core.ready } })

/-! ### Committing (R67, R68, R256, R292) -/

/-- The trap of a refused outbox entry (R256, R348). -/
def refusalTrap (e : OutEntry) : Trap :=
  match e.cargo with
  | .msg dst ch _ | .msgAcq dst ch _ _ | .hold dst ch _ | .ready dst ch _ =>
    { cause := 0x0F, addr := BitVec.ofNat 64 (dst % 2 ^ 12 + ch % 64 * 2 ^ 12), entry := some e }
  | .dec ea _ _ => { cause := 0x06, addr := ea, det1 := 8, entry := some e }
  | .amo .. | .push .. => { cause := 0x06, entry := some e }

/-- The first refused entry of an outbox. -/
def refusedEntry (c : Core) : Option OutEntry := c.outbox.find? (·.refused)

/-- The core whose turn it is freezes at once on a refused entry, if it is idle or its instruction waits at a commit point (R256). -/
def reportRefusal (s : State) : State :=
  match refusedEntry s.core with
  | none => s
  | some e =>
    match s.core.phase with
    | .idle | .wait (.acquire ..) | .wait (.crest ..) | .wait .expert | .wait .leave => freezeOn (refusalTrap e) s
    | _ => s

/-- The highest dirty byte of a line plus one, and at least one. -/
def Line.extent (l : Line) : Nat := (List.range 64).foldl (fun n k => if l.dirty.getLsbD k then k + 1 else n) 1

/-- A slot about to be freed for a cairn writes nothing back that its home would refuse, and the home that lent its own cairn takes the
surrender (R71, R301, R308). -/
def freedSlotSafe (cairn : Word) : Act Unit := fun s =>
  match slotFreed s.cid cairn s with
  | none => .ok ((), s)
  | some n =>
    let x := s.core.slot n
    match noRefusal (fun l => l.slot = some n) s, (cairnPhys s x.cairn).filter fun _ => x.ret with
    | .error e, _ => .error e
    | .ok _, some p => mayTell x.cairn p s
    | .ok _, none => .ok ((), s)

/-- The slot of a line of an object with this class and cairn, allocated if need be (R308): cause 0x08 where none can be freed. -/
def boundSlot (a : Word) (cls : BitVec 2) (cairn : Word) : Act (Option Nat) := do
  if cls ≠ 1 then pure none
  else
    freedSlotSafe cairn
    fun s => match slotFor s.cid cairn s with
      | some (n, s) => .ok (some n, s)
      | none => .error (.trap { cause := 0x08, addr := a })

/-- The hand-off epoch of a slot, 0 for none (R303). -/
def slotEpoch (c : Core) (slot : Option Nat) : Word :=
  match slot with
  | some n => (c.slot n).epoch
  | none => 0

/-- L2 takes the block of a line that a store's miss, or a new translation at a commit, places in L1 (R292, R302). Where its set is full
of uncommitted bytes, the instruction waits for another core to commit, or overflows where only its own core's bytes are in the way.
DESIGN CHOICE (log 7). -/
def includeLine (a : Word) (phys : Nat) (slot : Option Nat) : Act Unit := fun s =>
  let g := clusterOf s.cid
  if l2Includes g phys s then .ok ((), s)
  else if l2Full g phys s then .error (if l2FullOfOwn s.cid phys s then .trap { cause := 0x08, addr := a } else .stall 0)
  else match l2Refused g phys s with
    | some (k, l) => .error (.trap (refusedBack k l))
    | none => .ok ((), l2Allocate g phys (slotEpoch s.core slot) s)

/-- A recheck line translated anew for its dirty bytes; its slot follows the class and the cairn that its object has now, and L2 includes
its block (R292, R302). Its clean bytes, read from the old place, stay valid, and synonyms that other cores hold of its new block are not
settled, as a fill would settle them (R286). DESIGN CHOICE (log 35). -/
def recheckLine (l : Line) : Act Unit := fun s =>
  let need := if l.perm.getLsbD 1 || !l.perm.getLsbD 4 then Need.write else Need.update
  match translate s (clusterOf s.cid) (objId l.addr) (objOff l.addr) l.extent need with
  | .error e => xfail e l.addr s
  | .ok (x, s) =>
    match boundSlot l.addr x.cls x.cairn s with
    | .error e => .error e
    | .ok (slot, s) =>
      let l' : Line :=
        { l with
          recheck := false
          data := asHeld s x.phys l.data
          slot := slot
          phys := x.phys
          perm := x.perm
          cls := x.cls
          aliased := x.aliased
          inb := min 64 (x.limit - objOff l.addr) }
      let t := { s with core := { s.core with lines := setLine s.core.lines l' } }
      if x.cls = 2 then .ok ((), t) else includeLine l.addr x.phys slot t

/-- A line of an object that is uncached now: L1 keeps nothing of it once it has committed (R292, R304). -/
def Line.uncached (l : Line) : Bool := l.cls = 2

/-- A posted atomic marked for recheck, translated anew (R151, R292). -/
def recheckEntry (e : OutEntry) : Act OutEntry := fun s =>
  match e.recheck, e.cargo with
  | true, .amo op n ea _ b =>
    match translate s (clusterOf s.cid) (objId ea) (objOff ea) n .atomic with
    | .error f => xfail f ea s
    | .ok (x, s) => .ok ({ e with recheck := false, cargo := .amo op n ea x.phys b }, s)
  | _, _ => .ok (e, s)

/-- What must hold before a region may commit: no refused entry, on which a waiting commit point freezes at once (R256), the sequencer
drained (R220), no older committed entry (R68), no EXROUTE outstanding (R384). -/
def mayCommit : Act Unit := fun s =>
  let c := s.core
  match refusedEntry c with
  | some e => .error (.trap (refusalTrap e))
  | none =>
    if (c.rep.state = 2 || c.rep.state = 3) && c.repAt.isNone then .error (.stall 0)
    else if c.outbox.any (·.committed) then .error (.stall (if headWaits s s.cid then 0x30 else 0))
    else if c.exroute.isSome then .error (.stall 0x41)
    else .ok ((), s)

/-- A region commits (R68): lines become committed, entries are marked committed, and RPC is the instruction in issue until it
retires (R310). A commit point that the sequencer issues stands before the instruction that follows REPX: RPC is there, and the entries of
that instruction and of those after it stay uncommitted (R220, log 21). -/
def commitRegion (c : Core) : Core :=
  { c with
    lines := c.lines.map fun l => { l with unc := false }
    outbox := c.outbox.map fun e => if c.repAt.isSome && e.late then e else { e with committed := true }
    lastEcc := none
    rpc := if c.repAt.isSome then c.rep.after else c.pc }

/-- The region commits, before the instruction in issue takes effect (R67, R68, R292). -/
def commitNow : Act Unit := do
  mayCommit
  each recheckLine (← ask fun c => c.lines.filter (·.recheck))
  let es ← collect recheckEntry (← ask fun c => c.outbox)
  change fun c => commitRegion { c with outbox := es }
  if ← ask fun c => c.lines.any (·.uncached) then
    noRefusal (·.uncached)
    changeS fun s => purgeLines s.cid (·.uncached) s

/-- A COMMIT POINT (R67): an instruction that waits between its commit and its retirement commits once (R264, R323, R342, R343). -/
def commitPoint : Act Unit := do
  if ← ask (·.committed) then
    match ← ask refusedEntry with
    | some e => stop (.trap (refusalTrap e))
    | none => pure ()
  else commitNow

/-- Such an instruction has committed and waits to retire, for the reason code of R428, or 0; whether an abort waits for it. -/
def waitCommitted (why : BitVec 8) (noAbort : Bool := false) : Act Unit := fun s =>
  let s := traceStall s.cid why s
  .ok ((), { s with held := true, core := { s.core with committed := true, noAbort := noAbort } })

/-- An act after the commit that waits, committed, where the act would wait at issue; aborts wait for it (R152, R403). -/
def orWait (m : Act Unit) : Act Unit := fun s =>
  match m s with
  | .error (.stall why) => waitCommitted why true s
  | r => r

/-! ### The outbox (R66, R69) -/

/-- Who issues, for an activation: the fields that an outbox entry records (R256). -/
def issuer (c : Core) (act : Option Activation) : Issuer :=
  { pc := match c.repAt with
      | some (_, p) => match c.rep.cap[p]? with
        | some x => x.pc
        | none => c.pc
      | none => c.pc
    insn := c.insn
    tag := match act with
      | some a => a.tag
      | none => 0
    epc := match act with
      | some a => a.epc
      | none => 0
    actNo := c.actNo }

/-- The address of what an outbox entry does: of a posted atomic or DEC its own. A message, a bit of a channel or a record has none: 0.
DEDUCED (log 18). -/
def Cargo.addr : Cargo → Word
  | .amo _ _ ea _ _ | .dec ea _ _ => ea
  | .msg .. | .msgAcq .. | .hold .. | .ready .. | .push .. => 0

/-- An outbox entry taken, or the overflow of R69, whose packet has the entry's address (R75). -/
def post (cargo : Cargo) (committed : Bool := false) : Act Unit := fun s =>
  if 16 ≤ s.core.outbox.length then .error (.trap { cause := 0x08, addr := cargo.addr })
  else .ok ((), { s with core := { s.core with outbox := s.core.outbox ++
    [{ cargo := cargo, by_ := issuer s.core s.serving, committed := committed, refused := false, recheck := false,
       late := s.core.rep.state = 2 && s.core.repAt.isNone }] } })

/-! ### The end of an act -/

/-- The cached translation on which an access of the core whose turn it is has faulted is dropped (R284). -/
def dropStale (x : Option (Nat × Nat)) (s : State) : State :=
  match x with
  | some (id, off) => s.modCluster (clusterOf s.cid) fun c => { c with tc := tcDrop c.tc id off }
  | none => s

/-- What a stopped instruction comes to, but for one that commits first. -/
def takeStopPlain (e : Stop) (s : State) : State :=
  match e with
  | .trap t => takeFault t (dropStale t.stale (loseLine t.lost s))
  | .park a stale => takePark a (dropStale stale s)
  | .ecc b a lane => takeEcc b a lane s
  | .stall why => { traceStall s.cid why s with held := true }
  | .commitFirst _ => { s with held := true }

/-- What a stopped instruction comes to. One that commits first waits on, committed; a load or a returning atomic among them holds an
abort off until it has retired (R146). -/
def takeStop (e : Stop) (s : State) : State :=
  match e with
  | .commitFirst why =>
    match commitNow s with
    | .ok (_, t) =>
      let t := traceStall t.cid why t
      { t with held := true, core := { t.core with committed := true, noAbort := why = 0x41 } }
    | .error e => takeStopPlain e s
  | e => takeStopPlain e s

/-- The state after an instruction's act: its effects, or what its stop comes to. -/
def after (m : Act Unit) (s : State) : State :=
  match m s with
  | .ok (_, t) => t
  | .error e => takeStop e s

/-- The outcome of an instruction. Every stop of the manual is a next state of the package. -/
def finish (m : Act Unit) (s : State) : Host.Outcome State Fault Refusal := .next (after m s)

end Sys2Proof.Machine
end

