-- ==== Sys2Proof/Machine/Alu.lean ====
section
/-!
DEFINITION. The ALU group (R129 to R133): one function of two words or of one word for each instruction, and the shared act.
-/

namespace Sys2Proof.Machine

/-- 1 for true, 0 for false. -/
def bit (b : Bool) : Word := if b then 1 else 0

/-- Bits 127:64 of a product taken exactly. -/
def mulHigh (x y : Int) : Word := BitVec.ofInt 64 (x * y / 2 ^ 64)

/-- Division of R131: toward zero, −1 for a zero divisor; the overflowing case wraps to −2^63. -/
def divS (x y : Word) : Word := if y = 0 then BitVec.allOnes 64 else BitVec.ofInt 64 (x.toInt.tdiv y.toInt)
def divU (x y : Word) : Word := if y = 0 then BitVec.allOnes 64 else BitVec.ofNat 64 (x.toNat / y.toNat)

/-- Remainder of R131: the sign of the dividend, which is the remainder for a zero divisor. -/
def remS (x y : Word) : Word := if y = 0 then x else BitVec.ofInt 64 (x.toInt.tmod y.toInt)
def remU (x y : Word) : Word := if y = 0 then x else BitVec.ofNat 64 (x.toNat % y.toNat)

/-- Zero bits above the highest one bit among the lowest n. -/
def zerosAbove (x : Nat) : Nat → Nat
  | 0 => 0
  | n + 1 => if x.testBit n then 0 else zerosAbove x n + 1

/-- Zero bits from bit k up, within the next n. -/
def zerosFrom (x : Nat) (k : Nat) : Nat → Nat
  | 0 => 0
  | n + 1 => if x.testBit k then 0 else zerosFrom x (k + 1) n + 1

/-- One bits among the lowest n. -/
def onesBelow (x : Nat) : Nat → Nat
  | 0 => 0
  | n + 1 => (if x.testBit n then 1 else 0) + onesBelow x n

def leadingZeros (x : Word) : Word := BitVec.ofNat 64 (zerosAbove x.toNat 64)
def trailingZeros (x : Word) : Word := BitVec.ofNat 64 (zerosFrom x.toNat 0 64)
def popCount (x : Word) : Word := BitVec.ofNat 64 (onesBelow x.toNat 64)

/-- A two-source ALU instruction: sources, destination, result, retirement (R130). -/
def alu2 (f : Word → Word → Word) (o : RArgs) : Act Unit := do
  let x ← readS o.a o.ta
  let y ← readS o.b o.tb
  awaitS o.d
  writeS o.d (f x y)
  retire

/-- A one-source ALU instruction. -/
def alu1 (f : Word → Word) (o : RArgs) : Act Unit := do
  let x ← readS o.a o.ta
  awaitS o.d
  writeS o.d (f x)
  retire

/-- ADD (R130). -/
def fnAdd (x y : Word) : Word := x + y
def execAdd (o : RArgs) (s : State) : Host.Outcome State Fault Refusal := finish (alu2 fnAdd o) s

/-- SUB (R130). -/
def fnSub (x y : Word) : Word := x - y
def execSub (o : RArgs) (s : State) : Host.Outcome State Fault Refusal := finish (alu2 fnSub o) s

/-- AND (R130). -/
def fnAnd (x y : Word) : Word := x &&& y
def execAnd (o : RArgs) (s : State) : Host.Outcome State Fault Refusal := finish (alu2 fnAnd o) s

/-- OR (R130). -/
def fnOr (x y : Word) : Word := x ||| y
def execOr (o : RArgs) (s : State) : Host.Outcome State Fault Refusal := finish (alu2 fnOr o) s

/-- XOR (R130). -/
def fnXor (x y : Word) : Word := x ^^^ y
def execXor (o : RArgs) (s : State) : Host.Outcome State Fault Refusal := finish (alu2 fnXor o) s

/-- SLL (R130). -/
def fnSll (x y : Word) : Word := x <<< (y.toNat % 64)
def execSll (o : RArgs) (s : State) : Host.Outcome State Fault Refusal := finish (alu2 fnSll o) s

/-- SRL (R130). -/
def fnSrl (x y : Word) : Word := x >>> (y.toNat % 64)
def execSrl (o : RArgs) (s : State) : Host.Outcome State Fault Refusal := finish (alu2 fnSrl o) s

/-- SRA (R130). -/
def fnSra (x y : Word) : Word := x.sshiftRight (y.toNat % 64)
def execSra (o : RArgs) (s : State) : Host.Outcome State Fault Refusal := finish (alu2 fnSra o) s

/-- ROL (R130). -/
def fnRol (x y : Word) : Word := x.rotateLeft (y.toNat % 64)
def execRol (o : RArgs) (s : State) : Host.Outcome State Fault Refusal := finish (alu2 fnRol o) s

/-- SLT (R130). -/
def fnSlt (x y : Word) : Word := bit (x.slt y)
def execSlt (o : RArgs) (s : State) : Host.Outcome State Fault Refusal := finish (alu2 fnSlt o) s

/-- SLTU (R130). -/
def fnSltu (x y : Word) : Word := bit (x.ult y)
def execSltu (o : RArgs) (s : State) : Host.Outcome State Fault Refusal := finish (alu2 fnSltu o) s

/-- MIN (R130). -/
def fnMin (x y : Word) : Word := if x.slt y then x else y
def execMin (o : RArgs) (s : State) : Host.Outcome State Fault Refusal := finish (alu2 fnMin o) s

/-- MAX (R130). -/
def fnMax (x y : Word) : Word := if x.slt y then y else x
def execMax (o : RArgs) (s : State) : Host.Outcome State Fault Refusal := finish (alu2 fnMax o) s

/-- MINU (R130). -/
def fnMinu (x y : Word) : Word := if x.ult y then x else y
def execMinu (o : RArgs) (s : State) : Host.Outcome State Fault Refusal := finish (alu2 fnMinu o) s

/-- MAXU (R130). -/
def fnMaxu (x y : Word) : Word := if x.ult y then y else x
def execMaxu (o : RArgs) (s : State) : Host.Outcome State Fault Refusal := finish (alu2 fnMaxu o) s

/-- MUL (R130). -/
def fnMul (x y : Word) : Word := x * y
def execMul (o : RArgs) (s : State) : Host.Outcome State Fault Refusal := finish (alu2 fnMul o) s

/-- MULH (R130). -/
def fnMulh (x y : Word) : Word := mulHigh x.toInt y.toInt
def execMulh (o : RArgs) (s : State) : Host.Outcome State Fault Refusal := finish (alu2 fnMulh o) s

/-- MULHU (R130). -/
def fnMulhu (x y : Word) : Word := mulHigh x.toNat y.toNat
def execMulhu (o : RArgs) (s : State) : Host.Outcome State Fault Refusal := finish (alu2 fnMulhu o) s

/-- DIV (R131). -/
def fnDiv (x y : Word) : Word := divS x y
def execDiv (o : RArgs) (s : State) : Host.Outcome State Fault Refusal := finish (alu2 fnDiv o) s

/-- DIVU (R131). -/
def fnDivu (x y : Word) : Word := divU x y
def execDivu (o : RArgs) (s : State) : Host.Outcome State Fault Refusal := finish (alu2 fnDivu o) s

/-- REM (R131). -/
def fnRem (x y : Word) : Word := remS x y
def execRem (o : RArgs) (s : State) : Host.Outcome State Fault Refusal := finish (alu2 fnRem o) s

/-- REMU (R131). -/
def fnRemu (x y : Word) : Word := remU x y
def execRemu (o : RArgs) (s : State) : Host.Outcome State Fault Refusal := finish (alu2 fnRemu o) s

/-- OMK (R132). -/
def fnOmk (x y : Word) : Word := ((x &&& 0x7F_FFFF#64) <<< 40) ||| (y &&& 0xFF_FFFF_FFFF#64)
def execOmk (o : RArgs) (s : State) : Host.Outcome State Fault Refusal := finish (alu2 fnOmk o) s

/-- LSPC (R132). -/
def fnLspc (x y : Word) : Word := (1#64 <<< 63) ||| ((x &&& 7#64) <<< 60) ||| (y &&& 0x0FFF_FFFF_FFFF_FFFF#64)
def execLspc (o : RArgs) (s : State) : Host.Outcome State Fault Refusal := finish (alu2 fnLspc o) s

/-- CMOV (R130): b where a ≠ 0, else the old d, read with t = 0. -/
def actCmov (o : RArgs) : Act Unit := do
  let x ← readS o.a o.ta
  let y ← readS o.b o.tb
  let z ← readS o.d 0
  awaitS o.d
  writeS o.d (if x ≠ 0 then y else z)
  retire
def execCmov (o : RArgs) (s : State) : Host.Outcome State Fault Refusal := finish (actCmov o) s

/-- CLZ (R130, R132). -/
def fnClz (x : Word) : Word := leadingZeros x
def execClz (o : RArgs) (s : State) : Host.Outcome State Fault Refusal := finish (alu1 fnClz o) s

/-- CTZ (R130, R132). -/
def fnCtz (x : Word) : Word := trailingZeros x
def execCtz (o : RArgs) (s : State) : Host.Outcome State Fault Refusal := finish (alu1 fnCtz o) s

/-- POPC (R130, R132). -/
def fnPopc (x : Word) : Word := popCount x
def execPopc (o : RArgs) (s : State) : Host.Outcome State Fault Refusal := finish (alu1 fnPopc o) s

/-- OID (R130, R132). -/
def fnOid (x : Word) : Word := if x.getLsbD 63 then 0 else (x >>> 40) &&& 0x7F_FFFF#64
def execOid (o : RArgs) (s : State) : Host.Outcome State Fault Refusal := finish (alu1 fnOid o) s

/-- OOFF (R130, R132). -/
def fnOoff (x : Word) : Word := if x.getLsbD 63 then x &&& 0x0FFF_FFFF_FFFF_FFFF#64 else x &&& 0xFF_FFFF_FFFF#64
def execOoff (o : RArgs) (s : State) : Host.Outcome State Fault Refusal := finish (alu1 fnOoff o) s

end Sys2Proof.Machine
end

