-- ==== Sys2Proof/Machine/Fetch.lean ====
section
/-!
DEFINITION. Fetching an instruction's halfwords (R63, R80, R139): the L1 instruction cache, translation with execute permission,
and the faults of a fetch.
-/

namespace Sys2Proof.Machine

/-- The traps of an act as traps of a fetch: INSN is 0 (R139). -/
def asFetch {α : Type} (m : Act α) : Act α := fun s =>
  match m s with
  | .error (.trap t) => .error (.trap { t with fetch := true })
  | .error e => .error e
  | .ok r => .ok r

/-- The lines that the L1 instruction cache holds (R63). -/
def icacheLines : Nat := 512

/-- The instruction cache with a line added. -/
def addILine (n : Nat) (l : ILine) (ls : List ILine) : List ILine :=
  let rest := ls.filter (·.addr ≠ l.addr)
  if rest.length < icacheLines then l :: rest else l :: rest.eraseIdx (Config.victim n icacheLines % icacheLines)

/-- The stamp that an instruction fetch asks of an L2 sector (R303, R323). -/
def fetchStampOf (c : Core) : Option Word := if c.fetchFenced then some c.fetchStamp else none

/-- The halfword at an offset of a block. -/
def halfOf (d : BitVec 512) (off : Nat) : BitVec 16 := d.extractLsb' (8 * (off % 64)) 16

/-- The slot that the core has for a block's cairn, for an access that takes none. -/
def xlatSlot (c : Core) (x : Xlat) : Option Nat := if x.cls = 1 then slotNamed c x.cairn else none

/-- A block read for an L1 miss: from a sector that the epoch and the stamp let serve it, else from its home (R302, R303). A line that
makes room in L2 and whose write-back its home refuses faults (R71, R301). -/
def missRead (a : Word) (x : Xlat) (slot : Option Nat) (stamp : Option Word) : Act Block := fun s =>
  let g := clusterOf s.cid
  let epoch := slotEpoch s.core slot
  let bound := decide (x.cls = 1)
  if (l2Hit g x.phys bound epoch stamp s).isSome then .ok (l2Read g x.phys bound epoch stamp s)
  else
    match readable x.phys a s with
    | .error e => .error e
    | .ok (_, s) =>
      match l2Refused g x.phys s with
      | some (k, l) => .error (.trap (refusedBack k l))
      | none => .ok (l2Read g x.phys bound epoch stamp s)

/-- A block is cached by L1 only as bytes written: an unbound object homed outside the package's own memory (R304, R423, R425). -/
def keepsWritten (s : State) (x : Xlat) : Bool := !isLocalDram s x.phys && x.cls ≠ 1

/-- A halfword of a block read for a fetch that misses: translated, and kept unless the object is uncached, L1 keeps only written bytes of
it, or L2 has no room for the block (R302, R304). -/
def fetchMiss (a : Word) : Act (BitVec 16) := fun s =>
  match translate s (clusterOf s.cid) (objId a) (objOff a) 2 .exec with
  | .error e => xfail e a s
  | .ok (x, s) =>
    if x.cls = 2 then (readable x.phys a s).map fun r => (halfOf (physBlock r.2 x.phys).data x.phys, r.2)
    else
      match missRead a x (xlatSlot s.core x) (fetchStampOf s.core) s with
      | .error e => .error e
      | .ok (b, s) =>
        let l : ILine := ⟨blockAddr a, b.data, min 64 (x.limit - objOff (blockAddr a)), blockOf x.phys⟩
        .ok (halfOf b.data (objOff a),
          if !keepsWritten s x && l2Includes (clusterOf s.cid) x.phys s then
            { s with core := { s.core with ilines := addILine s.nfree l s.core.ilines } }
          else s)

/-- The halfword at an address of the instruction stream (R80, R139). -/
def fetchHalf (a : Word) : Act (BitVec 16) := asFetch fun s =>
  if a.getLsbD 63 then .error (.trap { cause := 0x05, addr := a })
  else
    match s.core.ilines.find? (·.addr = blockAddr a) with
    | some l => if (objOff a) % 64 + 2 ≤ l.inb then .ok (halfOf l.data (objOff a), s) else fetchMiss a s
    | none => fetchMiss a s

/-- The instruction word at an address: a 16-bit form in bits 15:0 with bits 31:16 zero (R74, R80). -/
def fetchInsn (a : Word) : Act (BitVec 32) := do
  let lo ← fetchHalf a
  if lo.getLsbD 0 then
    let hi ← fetchHalf (a + 2)
    pure (hi ++ lo)
  else pure (lo.setWidth 32)

/-- The core with a word latched as the instruction in issue. -/
def Core.latch (c : Core) (w : BitVec 32) : Core := { c with insn := w, pfx := none, repAt := none }

/-- The fetch of an instruction stops, at any of its halfwords or at the word that follows a prefix: INSN is 0 (R139). -/
def fetchStops (e : Stop) (s : State) : State := takeStop e { s with core := s.core.latch 0 }

end Sys2Proof.Machine
end

