-- ==== Sys2Proof/Machine/Access.lean ====
section
/-!
DEFINITION. Accesses of the core whose turn it is to memory: the place that an address names and its checks (R141, R149, R251, R273,
R274, R282, R283, R435), loads and stores through L1 (R63, R64, R66, R69, R286, R304), and accesses performed at home (R317).
-/

namespace Sys2Proof.Machine

/-- Where an access is performed. -/
inductive Target where
  /-- A byte of an SRAM, by physical address; whether it is the own scratchpad through space 1. -/
  | sram (p : Nat) (own : Bool) (a : Word)
  /-- Object memory through L1: the address, and its translation unless a line serves it. -/
  | line (a : Word) (x : Option Xlat)
  /-- Object memory performed at home: physical address, whether the access is a commit point, address. -/
  | home (p : Nat) (commit : Bool) (a : Word)
  /-- A register of control space, by offset. -/
  | control (off : Nat)
  /-- A location of the debug window outside a scratchpad, by window address. -/
  | debug (w : Nat)
  deriving DecidableEq, Repr

/-- What an access does at its address, for the checks of local spaces. -/
inductive Mode where
  | load | store | atomic
  deriving DecidableEq, Repr

def Mode.writes : Mode → Bool
  | .load => false
  | _ => true

/-- An offset of the system area of a scratchpad: channel table, deque storage, sequence table, message buffers (R61). -/
def inSystemArea (off : Nat) : Bool := 0xD8000 ≤ off && off < 0xE0000

/-- A trap with a cause and an address. -/
def trapAt (cause : BitVec 8) (a : Word) (det1 : BitVec 32 := 0) : Trap := { cause := cause, addr := a, det1 := det1 }

/-- The fields of a local address: space code, bits 59:0. -/
def spaceOf (a : Word) : Nat := (a.extractLsb' 60 3).toNat
def restOf (a : Word) : Nat := (a.extractLsb' 0 60).toNat

/-- The debug-window targets that a core reaches (R435): 0 no such target, 1 not reached, 2 reached. -/
def debugReach (k target : Nat) : Nat :=
  let reach (mine mesa : Bool) : Nat := if mine || (isCommand k && mesa) then 2 else 1
  if target < 0xC00 then reach (clusterOf target = clusterOf k) (mesaOf target = mesaOf k)
  else if 0xC00 ≤ target && target < 0xC00 + 192 then
    reach (target - 0xC00 = clusterOf k) ((target - 0xC00) / 48 = mesaOf k)
  else if 0xD00 ≤ target && target < 0xD04 then reach false (target - 0xD00 = mesaOf k)
  else if target = 0xE00 then reach false (k = commandCore 0)
  else 0

/-- The place of `n` bytes at a local address, with the checks of R141 step 3, R149, R251, R273 and R435. Where only W and D accesses
are taken, a load with size WU counts as W: it is as wide. DESIGN CHOICE (log 38). -/
def localTarget (s : State) (a : Word) (n : Nat) (m : Mode) : Except Trap Target :=
  let r := restOf a
  let sys (off : Nat) : Bool := m.writes && inSystemArea off
  match spaceOf a with
  | 1 =>
    if 2 ^ 20 < r + n then .error (trapAt 0x04 a)
    else if sys r then .error (trapAt 0x05 a)
    else .ok (.sram (scratch s s.cid r) true a)
  | 2 =>
    if 2 ^ 24 ≤ r then .error (trapAt 0x04 a)
    else if 2 ^ 20 < r % 2 ^ 20 + n then .error (trapAt 0x04 a)
    else if sys (r % 2 ^ 20) then .error (trapAt 0x05 a)
    else .ok (.sram (scratch s (16 * clusterOf s.cid + r / 2 ^ 20) (r % 2 ^ 20)) false a)
  | 3 => if 2 ^ 26 < r + n then .error (trapAt 0x04 a) else .ok (.sram (mesaScratch s (mesaOf s.cid) r) false a)
  | 4 =>
    if 2 ^ 28 ≤ r || 2 ^ 26 < r % 2 ^ 26 + n then .error (trapAt 0x04 a)
    else .ok (.sram (mesaScratch s (r / 2 ^ 26) (r % 2 ^ 26)) false a)
  | 5 =>
    if m = .atomic then .error (trapAt 0x05 a)
    else if !isSupervisor s.cid then .error (trapAt 0x05 a 11)
    else if 2 ^ 36 ≤ r then .error (trapAt 0x04 a)
    else
      let target := r / 2 ^ 24
      let off := r % 2 ^ 24
      match debugReach s.cid target with
      | 0 => .error (trapAt 0x04 a)
      | 1 => .error (trapAt 0x05 a 11)
      | _ =>
        if target < 0xC00 && off < 2 ^ 20 then
          if 2 ^ 20 < off + n then .error (trapAt 0x04 a) else .ok (.sram (scratch s target off) false a)
        else if n = 4 || n = 8 then .ok (.debug r)
        else .error (trapAt 0x05 a)
  | 6 =>
    if m = .atomic || !(n = 4 || n = 8) then .error (trapAt 0x05 a)
    else if 2 ^ 32 ≤ r then .error (trapAt 0x04 a)
    else .ok (.control r)
  | _ => .error (trapAt 0x04 a)

/-! ### Object memory (R63, R64, R282, R283) -/

/-- A line that serves an access by the copies it holds (R283). -/
def servingLine (c : Core) (a : Word) (n : Nat) (need : Need) : Option Line :=
  (findLine c (blockAddr a)).filter fun l => need.grantedBy l.perm && objOff a % 64 + n ≤ l.inb

/-- The bytes of a block below LEN, as its line counts them (R283). -/
def inBounds (a : Word) (x : Xlat) : Nat := min 64 (x.limit - objOff (blockAddr a))

/-- A line that an access hits without the permission, or beyond the count, is treated as missing once its block has been translated anew:
only its dirty bytes stay, with the new copies (R283). -/
def Core.missesAgain (c : Core) (a : Word) (x : Xlat) : Core :=
  match findLine c (blockAddr a) with
  | some l =>
    { c with lines :=
        if l.isDirty then setLine c.lines { l.onlyDirty with perm := x.perm, inb := inBounds a x } else dropLine c.lines l.addr }
  | none => c

/-- A posted atomic to a home, as an outbox entry. -/
def OutEntry.posts (home : Nat) (e : OutEntry) : Bool := match e.cargo with
  | .amo _ _ _ phys _ => decide (homeOf phys = home)
  | _ => false

/-- A posted atomic of core k to a home, on its way. -/
def Transit.posts (k home : Nat) (t : Transit) : Bool := match t with
  | .amo src _ _ phys _ => decide (src = k) && decide (homeOf phys = home)
  | _ => false

/-- An access at a home waits for the core's earlier posted atomics to that home (R143, R152); those of its own region commit
first. Such an access is a commit point (R67): where they wait behind a refused entry, the core freezes on that one (R256). -/
def behindPosted (phys : Nat) (need : Need) : Act Unit := fun s =>
  let why := if need = .read || need = .atomic then 0x41 else 0
  if s.core.outbox.any fun e => !e.committed && e.posts (homeOf phys) then .error (.commitFirst why)
  else if s.core.outbox.any (OutEntry.posts (homeOf phys)) || s.net.any (Transit.posts s.cid (homeOf phys)) then
    .error (match refusedEntry s.core with
      | some e => .trap (refusalTrap e)
      | none => .stall why)
  else .ok ((), s)

/-- Whether a posted atomic of the core whose turn it is, to a home, has committed and is not yet performed. -/
def postedAhead (s : State) (phys : Nat) : Bool :=
  s.core.outbox.any (fun e => e.committed && e.posts (homeOf phys)) || s.net.any (Transit.posts s.cid (homeOf phys))

/-- An access to a scratchpad waits for the core's own posted atomics to it that have committed: they are performed at that SRAM in
issue order (R253, R274). One whose region has not committed is performed later than the loads and stores of its region, which that
region does not hold back (R143, R363). DEDUCED (log 33). -/
def behindSram (phys : Nat) (m : Mode) : Act Unit := fun s =>
  if postedAhead s phys then .error (.stall (if m = .atomic then 0x41 else 0)) else .ok ((), s)

/-- The place of `n` bytes of one block of an object, with the checks of R282 and the hints of R64 (0 normal, 1 .na, 2 .by). An
uncached place waits its turn at its home, but for a check that reads nothing. Accesses of hint .by wait for no posted atomic, loads
and stores alike: R152 orders uncached accesses. DEDUCED (log 33). -/
def objectTarget (a : Word) (n : Nat) (need : Need) (hint : Nat) (ordered : Bool := true) : Act Target := fun s =>
  let dirty := match findLine s.core (blockAddr a) with
    | some l => l.isDirty
    | none => false
  let write := need = .write || need = .update
  match servingLine s.core a n need with
  | some l =>
    if hint = 2 && !dirty then .ok (.home (l.phys + objOff a % 64) write a, s) else .ok (.line a none, s)
  | none =>
    match translate s (clusterOf s.cid) (objId a) (objOff a) n need with
    | .error e => xfail e a s
    | .ok (x, s) =>
      let s := { s with core := s.core.missesAgain a x }
      if x.cls = 2 then
        if ordered then (behindPosted x.phys need s).map fun r => (.home x.phys true a, r.2) else .ok (.home x.phys true a, s)
      else if hint = 2 && !dirty then .ok (.home x.phys write a, s)
      else .ok (.line a (some x), s)

/-- A captured instruction that reads or writes memory. -/
def Captured.touchesMemory (x : Captured) : Bool :=
  match x.instr with
  | some (.vld _) | some (.vst _) | some (.vlds _) | some (.vsts _) | some (.vldl _) | some (.vstl _) | some (.vldt _) | some (.vstag _)
  | some (.vtag _) | some (.vgath _) | some (.vscat _) | some (.mma _) | some (.mld _) | some (.mst _) | some (.dqnt _) | some (.qnt _)
  | some (.pack _) | some (.unpk _) | some (.ctld _) => true
  | _ => false

/-- The sequence that runs touches memory: an access of the scalar instructions after it has yet to wait (R142, R162, R220). -/
def Core.seqTouches (c : Core) : Bool := c.rep.state = 2 && c.repAt.isNone && c.rep.cap.any (·.touchesMemory)

/-- The place of an access of `n` bytes at an address, in one block where it is object memory. -/
def target (a : Word) (n : Nat) (m : Mode) (need : Need) (hint : Nat := 0) (ordered : Bool := true) : Act Target := fun s =>
  if s.core.seqTouches then .error (.stall 0)
  else if a.getLsbD 63 then
    match localTarget s a n m with
    | .ok (.sram p own b) => if ordered then (behindSram p m s).map fun r => (.sram p own b, r.2) else .ok (.sram p own b, s)
    | .ok t => .ok (t, s)
    | .error t => .error (.trap t)
  else objectTarget a n need hint ordered s

/-- An access that is a commit point (R67). -/
def Target.commits : Target → Bool
  | .home _ c _ => c
  | _ => false

/-- The slot of a bound object's line, allocated if need be (R308). -/
def lineSlot (a : Word) (x : Xlat) : Act (Option Nat) := boundSlot a x.cls x.cairn

/-- The synonyms of a filled block give way (R286): committed bytes are written back, clean lines leave; uncommitted ones of
another core hold the fill, of this core fault it. A write-back that its home refuses faults (R301). -/
def settleSynonyms (a : Word) (x : Xlat) : Act Unit := fun s =>
  if !x.aliased then .ok ((), s)
  else
    let ls := synonyms (clusterOf s.cid) (blockAddr a) x.phys s
    if ls.any fun l => l.1 = s.cid && l.2.unc then .error (.trap (trapAt 0x05 a 1))
    else if ls.any fun l => l.2.unc then .error (.stall 0)
    else match ls.find? fun l => l.2.isDirty && mergeRefused s l.2.phys l.2.dirty l.2.tagDirty with
    | some l => .error (.trap (refusedBack l.1 l.2))
    | none => .ok ((), ls.foldl (fun s l => evictLine l.1 l.2 s) s)

/-- The stamp that a data miss asks of an L2 sector (R303). -/
def fenceStampOf (c : Core) : Option Word := if c.fenced then some c.fenceStamp else none

/-- A block read for a miss of the L1 data cache (R303). -/
def missBlock (a : Word) (x : Xlat) (slot : Option Nat) : Act Block := fun s => missRead a x slot (fenceStampOf s.core) s

/-- A line of a block with no byte valid yet. -/
def emptyLine (a : Word) (x : Xlat) (slot : Option Nat) (low : Bool) : Line :=
  { addr := blockAddr a, slot := slot, data := 0, valid := 0, dirty := 0, tag := 0, tagValid := 0, tagDirty := 0, unc := false,
    recheck := false, perm := x.perm, cls := x.cls, inb := inBounds a x, aliased := x.aliased,
    phys := blockOf x.phys, low := low }

/-- A line's bytes that it lacks taken from its block. -/
def Line.fill (l : Line) (b : Block) : Line :=
  { l with
    data := mergeBlock b.data l.data l.valid
    valid := BitVec.allOnes 64
    tag := mergeTag b.tag l.tag l.tagValid
    tagValid := BitVec.allOnes 5 }

/-- The translation of a line, for a fill of it: by its own copies where it serves the access. -/
def Line.xlat (l : Line) (cairn : Word) : Xlat :=
  { phys := l.phys, perm := l.perm, cls := l.cls, cairn := cairn, aliased := l.aliased, limit := objOff l.addr + l.inb, gen := 0,
    pageOff := 0, pageLen := 0, pagePhys := 0 }

/-- The bytes of a block that an access needs, from its address on. -/
def neededFrom (a : Word) (needed : BitVec 64) : Nat :=
  (List.range 64).foldl (fun n k => if needed.getLsbD k then k + 1 else n) 0 - objOff a % 64

/-- The translation by which a line's missing bytes are read: of a line marked for recheck made anew, with the checks of the access, since
its block may lie at another place now or beyond LEN (R290, R291). -/
def fillXlat (a : Word) (n : Nat) (l : Line) (x? : Option Xlat) : Act Xlat := fun s =>
  match x?, l.recheck with
  | some x, _ => .ok (x, s)
  | none, false => .ok (l.xlat (match l.slot with
      | some n => (s.core.slot n).cairn
      | none => 0), s)
  | none, true =>
    match translate s (clusterOf s.cid) (objId a) (objOff a) n .read with
    | .error e => xfail e a s
    | .ok r => .ok r

/-- A load that misses L1 finds no place for a line: its set of L1 (R69) or of L2 (log 7) is full of uncommitted bytes, or L1 keeps
nothing but written bytes of such a block. -/
def fillsNone (a : Word) (x : Xlat) (s : State) : Bool :=
  keepsWritten s x || (victimFor s.cid (blockAddr a) s).isNone || (isLocalDram s x.phys && l2Full (clusterOf s.cid) x.phys s)

/-- A line placed in L1; the answer says whether a way could be found. A victim whose write-back is refused faults (R301). -/
def placeLine (l : Line) : Act Bool := fun s =>
  match victimFor s.cid l.addr s with
  | some (some m) =>
    if m.isDirty && mergeRefused s m.phys m.dirty m.tagDirty then .error (.trap (refusedBack s.cid m))
    else .ok (true, (allocLine s.cid l s).getD s)
  | some none => .ok (true, (allocLine s.cid l s).getD s)
  | none => .ok (false, s)

/-- A line hit by an access: one of hint normal takes it out of the last place of the replacement order that a .na store gave it (R64). -/
def Line.promoted (hint : Nat) (l : Line) : Line := if hint = 1 || hint = 2 then l else { l with low := false }

/-- The core with a line that a load has hit promoted. -/
def Core.promote (hint : Nat) (l : Line) (c : Core) : Core :=
  if l.promoted hint = l then c else { c with lines := setLine c.lines (l.promoted hint) }

/-- The block of an access through L1, with its line filled; a .na miss and a set full of uncommitted lines allocate none (R64,
R69), nor does a block kept only as written bytes (R304). A line marked for recheck takes no byte more (R291). The answer says whether
the access left the core (R49). -/
def loadBlock (a : Word) (x? : Option Xlat) (needed : BitVec 64) (needTag : Bool) (hint : Nat) : Act (Block × Bool) := do
  let l? ← ask fun c => findLine c (blockAddr a)
  match l? with
  | some l =>
    change (Core.promote hint l)
    let l := l.promoted hint
    if l.valid &&& needed = needed && (!needTag || l.tagValid = BitVec.allOnes 5) then pure (⟨l.data, l.tag⟩, false)
    else
      let x ← fillXlat a (neededFrom a needed) l x?
      let b ← missBlock a x l.slot
      let l' := l.fill b
      if !l.recheck && !(← askS fun s => keepsWritten s x) && (← askS fun s => l2Includes (clusterOf s.cid) x.phys s) then
        change fun c => { c with lines := setLine c.lines { l' with perm := x.perm, inb := inBounds a x } }
      pure (⟨l'.data, l'.tag⟩, true)
  | none =>
    match x? with
    | none => pure (⟨0, 0⟩, false)
    | some x =>
      settleSynonyms a x
      if hint = 1 || (← askS fun s => fillsNone a x s) then
        pure (← missBlock a x (← ask fun c => xlatSlot c x), true)
      else
        let slot ← lineSlot a x
        let b ← missBlock a x slot
        let _ ← placeLine ((emptyLine a x slot false).fill b)
        pure (b, true)

/-- The bytes of an access, and whether it left the core (R49). -/
def readTarget (t : Target) (n : Nat) (hint : Nat := 0) : Act (List Byte × Bool) :=
  match t with
  | .sram p own a => do
    readable p a
    let bs ← askS fun s => physBytes s p n
    pure (bs, !own)
  | .home p _ a => do
    readable p a
    let bs ← askS fun s => physBytes s p n
    pure (bs, true)
  | .line a x => do
    let off := objOff a % 64
    let (b, left) ← loadBlock a x (byteMask off n) false hint
    pure (blockBytes b.data off n, left)
  | .control off => fault 0x05 (BitVec.ofNat 64 (2 ^ 63 + 6 * 2 ^ 60 + off))
  | .debug w => fault 0x05 (BitVec.ofNat 64 (2 ^ 63 + 5 * 2 ^ 60 + w))

/-- A block read for a miss reports no uncorrectable error: an L2 sector serves it, or its home may (R71, R303). -/
def missReadable (a : Word) (x : Xlat) : Act Unit := fun s =>
  let epoch := slotEpoch s.core (xlatSlot s.core x)
  if (l2Hit (clusterOf s.cid) x.phys (decide (x.cls = 1)) epoch (fenceStampOf s.core) s).isSome then .ok ((), s) else readable x.phys a s

/-- Step 5 of R141 at a load's place: n bytes there report no uncorrectable error (R71), and their home answers (R427). L1 has what it
holds of them; the rest would be read for a miss. Nothing is read, and no line is filled. -/
def readableAt (t : Target) (n : Nat) : Act Unit :=
  match t with
  | .control _ | .debug _ => pure ()
  | .sram p _ a | .home p _ a => readable p a
  | .line a x? => do
    let needed := byteMask (objOff a % 64) n
    match ← ask fun c => findLine c (blockAddr a), x? with
    | some l, x? => if l.valid &&& needed = needed then pure () else missReadable a (← fillXlat a (neededFrom a needed) l x?)
    | none, some x => missReadable a x
    | none, none => pure ()

/-- The physical address of a checked place: of a line marked for recheck, as its object translates now (R290). -/
def placeOf (t : Target) : Act Nat :=
  match t with
  | .sram p _ _ | .home p _ _ => pure p
  | .line _ (some x) => pure x.phys
  | .line a none => do
    match ← ask fun c => findLine c (blockAddr a) with
    | some l => do
      let x ← fillXlat a 1 l none
      pure x.phys
    | none => pure 0
  | .control _ | .debug _ => pure 0

/-! ### Stores -/

/-- Uncommitted lines of a core. -/
def uncommitted (c : Core) : Nat := (c.lines.filter (·.unc)).length

/-- The line of a store: the one held, or a new one that fetches nothing, with the overflow of R69. -/
def storeLine (a : Word) (x? : Option Xlat) (hint : Nat) : Act Line := do
  let l? ← ask fun c => findLine c (blockAddr a)
  let room ← ask fun c => decide (uncommitted c < 256)
  match l? with
  | some l =>
    require (l.unc || room) (.trap (trapAt 0x08 a))
    pure (match x? with
      | some x => { l.promoted hint with perm := x.perm, inb := inBounds a x }
      | none => l.promoted hint)
  | none =>
    match x? with
    | none => fault 0x08 a
    | some x =>
      require room (.trap (trapAt 0x08 a))
      settleSynonyms a x
      require (← askS fun s => (victimFor s.cid (blockAddr a) s).isSome) (.trap (trapAt 0x08 a))
      let slot ← lineSlot a x
      includeLine a x.phys slot
      let l := emptyLine a x slot (hint = 1)
      let ok ← placeLine l
      require ok (.trap (trapAt 0x08 a))
      pure l

/-- Bytes stored into a block through L1, held back with the region (R63, R66). -/
def storeBytes (a : Word) (x? : Option Xlat) (data : BitVec 512) (mask : BitVec 64) (tag : Tag) (tagMask : BitVec 5) (hint : Nat) :
    Act Unit := do
  let l ← storeLine a x? hint
  let data ← askS fun s => asHeld s l.phys data
  let l' : Line :=
    { l with
      data := mergeBlock l.data data mask
      valid := l.valid ||| mask
      dirty := l.dirty ||| mask
      tag := mergeTag l.tag tag tagMask
      tagValid := l.tagValid ||| tagMask
      tagDirty := l.tagDirty ||| tagMask
      unc := true }
  change fun c => { c with lines := setLine c.lines l' }

/-- What follows from the package's state before a store through the debug window to a block at an address (R223, R351). -/
def afterWindow (a : Word) (old s : State) : State :=
  if a.getLsbD 63 && spaceOf a = 5 then windowStored old (restOf a / 2 ^ 24) (restOf a % 2 ^ 24 / 64 * 64) 64 s else s

/-- A merge performed at home, into a block that no uncorrectable error spoils in part (R301). A posted write to a home that does
not answer is dropped and counted (R427). -/
def homeStore (p : Nat) (a : Word) (data : BitVec 512) (mask : BitVec 64) (tag : Tag) (tagMask : BitVec 5) : Act Unit := fun s =>
  if !reachable s p then .ok ((), countDrop s p)
  else if mergeRefused s (blockOf p) mask tagMask then .error (.trap (trapAt 0x0C a))
  else .ok ((), afterWindow a s (l2Refresh (clusterOf s.cid) p (homeMerge s (blockOf p) data mask tag tagMask)))

/-- Step 5 of R141 for a store performed at a place's home: it leaves no block that holds an uncorrectable error in part (R301). -/
def takesStore (t : Target) (mask : BitVec 64) (tagMask : BitVec 5) : Act Unit := fun s =>
  match t with
  | .sram p _ a | .home p _ a =>
    if mergeRefused s (blockOf p) mask tagMask then .error (.trap (trapAt 0x0C a)) else .ok ((), s)
  | .line _ _ | .control _ | .debug _ => .ok ((), s)

/-- The same for n bytes of data. -/
def takesBytes (t : Target) (n : Nat) : Act Unit :=
  match t with
  | .sram p _ _ | .home p _ _ => takesStore t (byteMask (p % 64) n) 0
  | .line _ _ | .control _ | .debug _ => pure ()

/-- The bytes of a store. -/
def writeTarget (t : Target) (bs : List Byte) (hint : Nat := 0) : Act Unit :=
  match t with
  | .sram p _ a => homeStore p a (placed (p % 64) bs) (byteMask (p % 64) bs.length) 0 0
  | .home p _ a => do
    change fun c => { c with lines := c.lines.filter fun l => !(l.addr = blockAddr a && l.isClean) }
    homeStore p a (placed (p % 64) bs) (byteMask (p % 64) bs.length) 0 0
  | .line a x => storeBytes a x (placed (objOff a % 64) bs) (byteMask (objOff a % 64) bs.length) 0 0 hint
  | .control off => fault 0x05 (BitVec.ofNat 64 (2 ^ 63 + 6 * 2 ^ 60 + off))
  | .debug w => fault 0x05 (BitVec.ofNat 64 (2 ^ 63 + 5 * 2 ^ 60 + w))

/-! ### Runs of bytes (R259, R341) -/

/-- The pieces of a run of bytes: 64-byte blocks in ascending order, as address and length. A run does not go on in the next object: an
object's last block takes all that lies beyond it, and fails its check against LEN (R259, R277). -/
def pieces (a : Word) (n : Nat) : List (Word × Nat) :=
  let stays := if a.getLsbD 63 then n else min n (2 ^ 40 - objOff a)
  let first := min stays (64 - a.toNat % 64)
  let blocks := (stays - first + 63) / 64
  if n = 0 then []
  else if stays ≤ first then [(a, n)]
  else (a, first) :: (List.range blocks).map fun k =>
    (a + BitVec.ofNat 64 (first + 64 * k), if k + 1 = blocks then n - first - 64 * k else 64)

/-- A bounds failure within a run is reported at the first byte beyond (R259). -/
def boundsAt (m : Act Target) (a : Word) (n : Nat) : Act Target := fun s =>
  match m s with
  | .error (.trap t) =>
    if t.cause = 0x04 && !a.getLsbD 63 then
      let len := (readEntry s (objId a)).len
      .error (.trap { t with addr := if objOff a < len ∧ len < objOff a + n then a + BitVec.ofNat 64 (len - objOff a) else t.addr })
    else if t.cause = 0x04 && spaceOf a = 1 && restOf a < 2 ^ 20 then
      .error (.trap { t with addr := a + BitVec.ofNat 64 (2 ^ 20 - restOf a) })
    else .error (.trap t)
  | .error e => .error e
  | .ok r => .ok r

/-- The places of a run of bytes read, each piece checked in ascending order (R259). -/
def runTargets (a : Word) (n : Nat) : Act (List (Target × Nat)) :=
  collect (fun p => do
    let t ← boundsAt (target p.1 p.2 .load .read 0 false) p.1 p.2
    pure (t, p.2)) (pieces a n)

/-- A run of bytes takes its turn behind the core's own posted atomics (R152, R253), once every check of its instruction has been
made; the instruction then reads it. -/
def orderRun (a : Word) (n : Nat) : Act Unit :=
  each (fun p => do
    let _ ← target p.1 p.2 .load .read
    pure ()) (pieces a n)

/-- The faults of an act reported at one address (R141). -/
def atAddr {α : Type} (a : Word) (m : Act α) : Act α := fun s =>
  match m s with
  | .error (.trap t) => .error (.trap (if t.lost.isSome then t else { t with addr := a }))
  | .error (.ecc b _ lane) => .error (.ecc b a lane)
  | .error e => .error e
  | .ok r => .ok r

/-- The turn of what a commit point reads before it commits. It waits at that commit point: where the posted atomics are held up behind a
refused entry, the core freezes on that one (R256). -/
def orderCommit (a : Word) (n : Nat) : Act Unit := fun s =>
  match orderRun a n s, refusedEntry s.core with
  | .error (.stall _), some e => .error (.trap (refusalTrap e))
  | r, _ => r

/-- Bytes that an instruction reads as one load at an address (R141): every place is checked before a byte is read, and the packet's
ADDR is that address. The answer says whether the load reaches an uncached object. -/
def readImageAt (a : Word) (n : Nat) : Act (List Byte × Bool) := atAddr a do
  let ts ← collect (fun p => do
    let t ← target p.1 p.2 .load .read 0 false
    pure (t, p.2)) (pieces a n)
  let rs ← collect (fun p => readTarget p.1 p.2) ts
  pure ((rs.map (·.1)).flatten, ts.any fun t => t.1.commits)

/-- A run of bytes read as loads (R259), and whether it reaches an uncached object. -/
def readPieces (a : Word) (n : Nat) : Act (List Byte × Bool) := do
  let rs ← collect (fun p => do
    let t ← boundsAt (target p.1 p.2 .load .read 0 false) p.1 p.2
    let r ← readTarget t p.2
    pure (r.1, t.commits)) (pieces a n)
  pure ((rs.map (·.1)).flatten, rs.any (·.2))

/-- The commit point of an instruction that has read a run of bytes, which one that reaches an uncached object is (R67). -/
def commitRun (a : Word) (n : Nat) (uncached : Bool) : Act Unit := do
  orderRun a n
  if uncached then commitPoint

/-- Retirement of an instruction that may have been a commit point (R67). -/
def retireAs (committed : Bool) : Act Unit := if committed then retireCommit else retire

end Sys2Proof.Machine
end

