-- ==== Sys2Proof/Machine/Float.lean ====
section
/-!
DEFINITION. Numbers of the lane (R14 to R18, R32 to R40): formats, exact values, rounding in every mode with its flags, arithmetic,
conversions, scales, Philox, and the special functions of R165.
-/

namespace Sys2Proof.Machine

/-! ### Formats (R14) -/

/-- What a format has beside finite values. -/
inductive Special where
  /-- Infinities and NaNs, as IEEE 754. -/
  | ieee
  /-- One NaN a sign, no infinity. -/
  | nan
  /-- Neither. -/
  | none
  deriving DecidableEq, Repr

/-- A floating-point format: exponent and mantissa bits, bias, specials, and the unused low bits of its container (R15). -/
structure Fmt where
  ebits : Nat
  mbits : Nat
  bias : Nat
  special : Special
  pad : Nat
  deriving DecidableEq, Repr

def fmtF64 : Fmt := ⟨11, 52, 1023, .ieee, 0⟩
def fmtF32 : Fmt := ⟨8, 23, 127, .ieee, 0⟩
def fmtF19 : Fmt := ⟨8, 10, 127, .ieee, 13⟩
def fmtB16 : Fmt := ⟨8, 7, 127, .ieee, 0⟩
def fmtF16 : Fmt := ⟨5, 10, 15, .ieee, 0⟩
def fmtE5M2 : Fmt := ⟨5, 2, 15, .ieee, 0⟩
def fmtE4M3 : Fmt := ⟨4, 3, 7, .nan, 0⟩
def fmtE3M4 : Fmt := ⟨3, 4, 3, .nan, 0⟩
def fmtE3M2 : Fmt := ⟨3, 2, 3, .none, 0⟩
def fmtE2M3 : Fmt := ⟨2, 3, 1, .none, 0⟩
def fmtE2M1 : Fmt := ⟨2, 1, 1, .none, 0⟩

/-- The exponent of the largest finite value, and its significand with the hidden bit. -/
def Fmt.emax (f : Fmt) : Int := if f.special = .ieee then 2 ^ f.ebits - 2 - (f.bias : Int) else 2 ^ f.ebits - 1 - (f.bias : Int)
def Fmt.maxSig (f : Fmt) : Nat := if f.special = .nan then 2 ^ (f.mbits + 1) - 2 else 2 ^ (f.mbits + 1) - 1

/-- The exponent of the smallest normal value. -/
def Fmt.emin (f : Fmt) : Int := 1 - (f.bias : Int)

/-- Patterns: sign, infinity, the default NaN (R16), the largest finite value. -/
def Fmt.signBit (f : Fmt) : Nat := 2 ^ (f.ebits + f.mbits + f.pad)
def Fmt.infBits (f : Fmt) (neg : Bool) : Nat := (if neg then f.signBit else 0) + (2 ^ f.ebits - 1) * 2 ^ (f.mbits + f.pad)
def Fmt.nanBits (f : Fmt) : Nat :=
  match f.special with
  | .ieee => (2 ^ f.ebits - 1) * 2 ^ (f.mbits + f.pad) + 2 ^ (f.mbits - 1 + f.pad)
  | .nan => 2 ^ (f.ebits + f.mbits) - 1
  | .none => 0
def Fmt.maxBits (f : Fmt) (neg : Bool) : Nat :=
  (if neg then f.signBit else 0) +
    (match f.special with
    | .ieee => (2 ^ f.ebits - 1) * 2 ^ f.mbits - 1
    | .nan => 2 ^ (f.ebits + f.mbits) - 2
    | .none => 2 ^ (f.ebits + f.mbits) - 1) * 2 ^ f.pad

/-! ### Values -/

/-- A value: a NaN, quiet or signalling, an infinity, or ± m × 2^e exactly. -/
inductive Num where
  | nan (signalling : Bool)
  | inf (neg : Bool)
  | fin (neg : Bool) (m : Nat) (e : Int)
  deriving DecidableEq, Repr

/-- The value of a pattern (R14, R16). -/
def Fmt.read (f : Fmt) (bits : Nat) : Num :=
  let x := bits / 2 ^ f.pad
  let neg := x.testBit (f.ebits + f.mbits)
  let e := x / 2 ^ f.mbits % 2 ^ f.ebits
  let m := x % 2 ^ f.mbits
  if f.special = .ieee && e = 2 ^ f.ebits - 1 then (if m = 0 then .inf neg else .nan (!m.testBit (f.mbits - 1)))
  else if f.special = .nan && e = 2 ^ f.ebits - 1 && m = 2 ^ f.mbits - 1 then .nan false
  else if e = 0 then .fin neg m (1 - (f.bias : Int) - f.mbits)
  else .fin neg (2 ^ f.mbits + m) ((e : Int) - f.bias - f.mbits)

/-- The flags that one computation raises (R36). -/
structure Fl where
  nv : Bool := false
  dz : Bool := false
  of : Bool := false
  uf : Bool := false
  nx : Bool := false
  deriving DecidableEq, Repr

/-- No flag, and an invalid operation. -/
def noFlags : Fl := {}
def invalidFlag : Fl := { nv := true }

/-- Flags of two computations together. -/
def Fl.or (a b : Fl) : Fl := ⟨a.nv || b.nv, a.dz || b.dz, a.of || b.of, a.uf || b.uf, a.nx || b.nx⟩

/-! ### Rounding (R32 to R34, R37, R39) -/

/-- A rounding mode of R32; stochastic rounding carries its random word. -/
inductive Rm where
  | rne | rtz | rdn | rup | rna
  | sr (word : Nat)
  deriving DecidableEq, Repr

/-- The integer nearest m / 2^shift by a mode, and whether it is inexact. -/
def roundShift (rm : Rm) (neg : Bool) (m shift : Nat) : Nat × Bool :=
  let q := m / 2 ^ shift
  let r := m % 2 ^ shift
  let up := match rm with
    | .rne => decide (2 ^ shift < 2 * r) || (2 ^ shift == 2 * r && q % 2 == 1)
    | .rtz => false
    | .rdn => neg && r != 0
    | .rup => !neg && r != 0
    | .rna => r != 0 && decide (2 ^ shift ≤ 2 * r)
    | .sr word => r != 0 && decide (word < r * 2 ^ 32 / 2 ^ shift)
  (if up then q + 1 else q, r != 0)

/-- m × 2^e as an integer multiple of 2^lsb by a mode, and whether it is inexact. -/
def roundAt (rm : Rm) (neg : Bool) (m : Nat) (e lsb : Int) : Nat × Bool :=
  if lsb ≤ e then (m * 2 ^ (e - lsb).toNat, false) else roundShift rm neg m (lsb - e).toNat

/-- Floor of log2 of m × 2^e, for m ≠ 0. -/
def expOf (m : Nat) (e : Int) : Int := e + (m.log2 : Int)

/-- a × 2^x < b × 2^y. -/
def dyadicLt (a : Nat) (x : Int) (b : Nat) (y : Int) : Bool :=
  if x ≤ y then a < b * 2 ^ (y - x).toNat else a * 2 ^ (x - y).toNat < b

/-- What a result beyond the largest finite value becomes (R39). -/
def Fmt.overflow (f : Fmt) (rm : Rm) (neg sat : Bool) : Nat :=
  let toInf := match rm with
    | .rne | .rna | .sr _ => true
    | .rtz => false
    | .rdn => neg
    | .rup => !neg
  if sat || !toInf then f.maxBits neg
  else match f.special with
    | .ieee => f.infBits neg
    | .nan => f.nanBits
    | .none => f.maxBits neg

/-- The flags of an overflow. -/
def overflowFlags : Fl := { of := true, nx := true }

/-- The pattern of M × 2^lsb where M has at most mbits + 1 bits, or one more by carry. -/
def Fmt.pattern (f : Fmt) (neg : Bool) (M : Nat) (lsb : Int) : Nat :=
  (if neg then f.signBit else 0) + ((lsb + f.mbits + f.bias - 1).toNat * 2 ^ f.mbits + M) * 2 ^ f.pad

/-- A result beyond the largest finite value under stochastic rounding: its neighbours are that value and 2^(emax + 1) (R34). -/
def Fmt.roundBeyond (f : Fmt) (word : Nat) (sat : Bool) (neg : Bool) (m : Nat) (e : Int) : Nat × Fl :=
  let base := min e (f.emax - f.mbits)
  let v := m * 2 ^ (e - base).toNat
  let lo := f.maxSig * 2 ^ (f.emax - f.mbits - base).toNat
  let hi := 2 ^ (f.emax + 1 - base).toNat
  if word < (v - lo) * 2 ^ 32 / (hi - lo) then (f.overflow .rne neg sat, overflowFlags) else (f.maxBits neg, { nx := true })

/-- ± m × 2^e rounded once into a format, with its flags (R34, R37, R39). -/
def Fmt.round (f : Fmt) (rm : Rm) (sat : Bool) (neg : Bool) (m : Nat) (e : Int) : Nat × Fl :=
  if m = 0 then ((if neg then f.signBit else 0), {})
  else
    let E := expOf m e
    let lsb := max E f.emin - f.mbits
    match rm, dyadicLt f.maxSig (f.emax - f.mbits) m e with
    | .sr word, true => f.roundBeyond word sat neg m e
    | _, _ =>
      let r := roundAt rm neg m e lsb
      if dyadicLt f.maxSig (f.emax - f.mbits) r.1 lsb then (f.overflow rm neg sat, overflowFlags)
      else
        let tiny := match rm with
          | .sr _ => dyadicLt r.1 lsb 1 f.emin
          | _ => dyadicLt (roundAt rm neg m e (E - f.mbits)).1 (E - f.mbits) 1 f.emin
        (f.pattern neg r.1 lsb, { uf := tiny && r.2, nx := r.2 })

/-! ### Arithmetic (R36 to R38, R163, R164) -/

/-- A default NaN, invalid where an operand was signalling. -/
def Fmt.nanOf (f : Fmt) (signalling : Bool) : Nat × Fl := (f.nanBits, { nv := signalling })

/-- An operand is a NaN, a signalling NaN. -/
def Num.isNan : Num → Bool
  | .nan _ => true
  | _ => false
def Num.isSnan : Num → Bool
  | .nan s => s
  | _ => false

/-- The value with its sign inverted. -/
def Num.neg : Num → Num
  | .nan s => .nan s
  | .inf n => .inf (!n)
  | .fin n m e => .fin (!n) m e

/-- A signed integer as sign and magnitude. -/
def signed (neg : Bool) (m : Nat) : Int := if neg then -(m : Int) else m

/-- The exact sum of two finite values; the sign of a zero sum is that of the mode (IEEE 754). -/
def exactAdd (rm : Rm) (n1 : Bool) (m1 : Nat) (e1 : Int) (n2 : Bool) (m2 : Nat) (e2 : Int) : Num :=
  let e := min e1 e2
  let x := signed n1 (m1 * 2 ^ (e1 - e).toNat) + signed n2 (m2 * 2 ^ (e2 - e).toNat)
  if x = 0 then .fin (if m1 = 0 && m2 = 0 && n1 = n2 then n1 else rm = .rdn) 0 e
  else .fin (decide (x < 0)) x.natAbs e

/-- The sum of two values, with its flags. -/
def Num.add (rm : Rm) (a b : Num) : Num × Fl :=
  match a, b with
  | .nan s, b => (.nan false, { nv := s || b.isSnan })
  | a, .nan s => (.nan false, { nv := s || a.isSnan })
  | .inf n, .inf k => if n = k then (.inf n, {}) else (.nan false, invalidFlag)
  | .inf n, .fin .. => (.inf n, {})
  | .fin .., .inf n => (.inf n, {})
  | .fin n1 m1 e1, .fin n2 m2 e2 => (exactAdd rm n1 m1 e1 n2 m2 e2, {})

/-- The exact product of two values, with its flags. -/
def Num.mul (a b : Num) : Num × Fl :=
  match a, b with
  | .nan s, b => (.nan false, { nv := s || b.isSnan })
  | a, .nan s => (.nan false, { nv := s || a.isSnan })
  | .inf n, .inf k => (.inf (n != k), {})
  | .inf n, .fin k m _ => if m = 0 then (.nan false, invalidFlag) else (.inf (n != k), {})
  | .fin k m _, .inf n => if m = 0 then (.nan false, invalidFlag) else (.inf (n != k), {})
  | .fin n1 m1 e1, .fin n2 m2 e2 => (.fin (n1 != n2) (m1 * m2) (e1 + e2), {})

/-- A value delivered in a format, rounded once. -/
def Fmt.deliver (f : Fmt) (rm : Rm) (sat : Bool) : Num × Fl → Nat × Fl
  | (.nan _, fl) => (f.nanBits, fl)
  | (.inf n, fl) => (f.infBits n, fl)
  | (.fin n m e, fl) =>
    let r := f.round rm sat n m e
    (r.1, fl.or r.2)

/-- Addition, subtraction, multiplication in a format. -/
def Fmt.add (f : Fmt) (rm : Rm) (a b : Nat) : Nat × Fl := f.deliver rm false ((f.read a).add rm (f.read b))
def Fmt.sub (f : Fmt) (rm : Rm) (a b : Nat) : Nat × Fl := f.deliver rm false ((f.read a).add rm (f.read b).neg)
def Fmt.mul (f : Fmt) (rm : Rm) (a b : Nat) : Nat × Fl := f.deliver rm false ((f.read a).mul (f.read b))

/-- ± a × b ± d, once rounded (R163): an invalid product counts beside a NaN addend. -/
def Fmt.fma (f : Fmt) (rm : Rm) (negProduct negAddend : Bool) (a b d : Nat) : Nat × Fl :=
  let p := (f.read a).mul (f.read b)
  let x := if negProduct then p.1.neg else p.1
  let y := if negAddend then (f.read d).neg else f.read d
  let r := x.add rm y
  f.deliver rm false (r.1, p.2.or r.2)

/-- A quotient with enough bits that its last, the remainder's, decides every rounding. -/
def quotient (m1 : Nat) (e1 : Int) (m2 : Nat) (e2 : Int) (bits : Nat) : Nat × Int :=
  let k := bits + m2.log2 + 2
  let q := m1 * 2 ^ k / m2
  (2 * q + (if m1 * 2 ^ k % m2 = 0 then 0 else 1), e1 - e2 - k - 1)

/-- Division (R163). -/
def Fmt.div (f : Fmt) (rm : Rm) (a b : Nat) : Nat × Fl :=
  match f.read a, f.read b with
  | .nan s, y => f.nanOf (s || y.isSnan)
  | x, .nan s => f.nanOf (s || x.isSnan)
  | .inf _, .inf _ => (f.nanBits, invalidFlag)
  | .inf n, .fin k _ _ => (f.infBits (n != k), {})
  | .fin n _ _, .inf k => ((if n != k then f.signBit else 0), {})
  | .fin n m1 e1, .fin k m2 e2 =>
    if m2 = 0 then (if m1 = 0 then (f.nanBits, invalidFlag) else (f.infBits (n != k), { dz := true }))
    else
      let q := quotient m1 e1 m2 e2 (f.mbits + 3)
      f.round rm false (n != k) q.1 q.2

/-- The integer square root by bits, from bit n − 1 down. -/
def isqrtFrom (x : Nat) : Nat → Nat → Nat
  | 0, r => r
  | n + 1, r => if (r + 2 ^ n) * (r + 2 ^ n) ≤ x then isqrtFrom x n (r + 2 ^ n) else isqrtFrom x n r

/-- The integer square root. -/
def isqrt (x : Nat) : Nat := isqrtFrom x (x.log2 / 2 + 1) 0

/-- Square root (R163). -/
def Fmt.sqrt (f : Fmt) (rm : Rm) (a : Nat) : Nat × Fl :=
  match f.read a with
  | .nan s => f.nanOf s
  | .inf n => if n then (f.nanBits, invalidFlag) else (f.infBits false, {})
  | .fin n m e =>
    if m = 0 then ((if n then f.signBit else 0), {})
    else if n then (f.nanBits, invalidFlag)
    else
      let k := 2 * (f.mbits + 4) + (e % 2).toNat
      let x := m * 2 ^ k
      let r := isqrt x
      f.round rm false false (2 * r + (if r * r = x then 0 else 1)) ((e - k) / 2 - 1)

/-- The order of two values that are not NaN: a below b, with −0 below +0. -/
def Num.below (a b : Num) : Bool :=
  let rank : Num → Int := fun x => match x with
    | .nan _ => 0
    | .inf n => if n then -2 else 2
    | .fin n m _ => if m = 0 then 0 else if n then -1 else 1
  if rank a ≠ rank b then rank a < rank b
  else match a, b with
    | .fin na ma ea, .fin nb mb eb =>
      if ma = 0 then na && !nb
      else if na then dyadicLt mb eb ma ea
      else dyadicLt ma ea mb eb
    | _, _ => false

/-- Zero of either sign. -/
def Num.isZero : Num → Bool
  | .fin _ m _ => m == 0
  | _ => false

/-- a < b and a = b as numbers: −0 equals +0. -/
def Num.lt (a b : Num) : Bool := !a.isNan && !b.isNan && !(a.isZero && b.isZero) && a.below b
def Num.eq (a b : Num) : Bool := !a.isNan && !b.isNan && !a.lt b && !b.lt a

/-- minimumNumber and maximumNumber (R164): the pattern of the operand chosen. -/
def Fmt.pick (f : Fmt) (wantMax : Bool) (a b : Nat) : Nat × Fl :=
  let x := f.read a
  let y := f.read b
  let fl : Fl := { nv := x.isSnan || y.isSnan }
  match x.isNan, y.isNan with
  | true, true => (f.nanBits, fl)
  | true, false => (b, fl)
  | false, true => (a, fl)
  | false, false => (if wantMax then (if x.below y then b else a) else (if y.below x then b else a), fl)

/-- The sign bit of a pattern replaced. -/
def Fmt.withSign (f : Fmt) (neg : Bool) (a : Nat) : Nat := a % f.signBit + (if neg then f.signBit else 0)
def Fmt.isNeg (f : Fmt) (a : Nat) : Bool := a / f.signBit % 2 == 1

/-- roundToIntegralExact (R164). -/
def Fmt.toIntegral (f : Fmt) (rm : Rm) (a : Nat) : Nat × Fl :=
  match f.read a with
  | .nan s => f.nanOf s
  | .inf _ => (a, {})
  | .fin n m e =>
    if 0 ≤ e then (a, {})
    else
      let r := roundAt rm n m e 0
      if r.1 = 0 then ((if n then f.signBit else 0), { nx := r.2 })
      else ((f.round .rtz false n r.1 0).1, { nx := r.2 })

/-! ### Conversions (R39, R40, R170) -/

/-- A value converted into a format (R39). NaN to a format without one gives +0 and is invalid. -/
def Fmt.convert (f : Fmt) (rm : Rm) (sat : Bool) (x : Num) : Nat × Fl :=
  match x with
  | .nan s => if f.special = .none then (0, invalidFlag) else (f.nanBits, { nv := s })
  | .inf n =>
    match f.special with
    | .ieee => (f.infBits n, {})
    | .nan => if sat then (f.maxBits n, {}) else (f.nanBits, invalidFlag)
    | .none => (f.maxBits n, {})
  | .fin n m e => f.round rm sat n m e

/-- An integer format: signed or not, and its width. -/
structure IFmt where
  sgn : Bool
  width : Nat
  deriving DecidableEq, Repr

/-- The ends of an integer format's range, and the integer of a pattern. -/
def IFmt.lo (t : IFmt) : Int := if t.sgn then -(2 ^ (t.width - 1)) else 0
def IFmt.hi (t : IFmt) : Int := if t.sgn then 2 ^ (t.width - 1) - 1 else 2 ^ t.width - 1
def IFmt.read (t : IFmt) (x : Nat) : Int :=
  let x := x % 2 ^ t.width
  if t.sgn && x.testBit (t.width - 1) then (x : Int) - 2 ^ t.width else x

/-- An integer as a pattern, its low bits. -/
def IFmt.wrap (t : IFmt) (x : Int) : Nat := (x % 2 ^ t.width).toNat

/-- An integer clamped to the range. -/
def IFmt.clamp (t : IFmt) (x : Int) : Int := if x < t.lo then t.lo else if t.hi < x then t.hi else x

/-- A value converted to an integer format (R40). Stochastic rounding of a value past the end of the range chooses between the two integers
around it, so that the random word decides over fl.nv there: R34 names no far neighbour. DESIGN CHOICE (log 39). -/
def IFmt.convert (t : IFmt) (rm : Rm) (x : Num) : Nat × Fl :=
  match x with
  | .nan _ => (0, invalidFlag)
  | .inf n => (t.wrap (if n then t.lo else t.hi), invalidFlag)
  | .fin n m e =>
    let r := roundAt rm n m e 0
    let v := signed n r.1
    if v < t.lo || t.hi < v then (t.wrap (t.clamp v), invalidFlag) else (t.wrap v, { nx := r.2 })

/-- An integer as a value. -/
def Num.ofInt (x : Int) : Num := .fin (decide (x < 0)) x.natAbs 0

/-! ### Scales (R21, R28, R29) -/

/-- ScaleOf for a magnitude, given emax of the target (R28). -/
def scaleOf (amax : Num) (emax : Int) : BitVec 8 :=
  match amax with
  | .nan _ | .inf _ => 0xFF
  | .fin _ m e =>
    if m = 0 then 0
    else
      let x := expOf m e - emax
      BitVec.ofInt 8 (127 + (if x < -127 then -127 else if 127 < x then 127 else x))

/-- A value times 2^(e − 127), for a scale byte other than 0xFF (R21). -/
def Num.scaled (x : Num) (scale : BitVec 8) : Num :=
  match x with
  | .fin n m e => .fin n m (e + (scale.toNat : Int) - 127)
  | x => x

/-- A value divided by a scale (R29). -/
def Num.unscaled (x : Num) (scale : BitVec 8) : Num :=
  match x with
  | .fin n m e => .fin n m (e + 127 - (scale.toNat : Int))
  | x => x

/-- Quantising to a floating element format: always saturates, an infinity without a flag (R29). The last component says that
the input was a NaN and the format has none. -/
def Fmt.quantise (f : Fmt) (rm : Rm) (x : Num) : Nat × Fl × Bool :=
  match x with
  | .nan s => if f.special = .none then (0, { nv := s }, true) else (f.nanBits, { nv := s }, false)
  | .inf n => (f.maxBits n, {}, false)
  | .fin n m e =>
    let r := f.round rm true n m e
    (r.1, r.2, false)

/-- Quantising to MI8: multiples of 2^−6 from −2 to 1.984375, no underflow flag (R29). Under stochastic rounding of a value just below
−2 the two neighbours of R34 coincide, since its hi is −2 too: the model takes −2 − 2^−6 as the far one, and so sets fl.of where the
word chooses it. DESIGN CHOICE (log 39). -/
def quantiseMi8 (rm : Rm) (x : Num) : Nat × Fl × Bool :=
  match x with
  | .nan s => (0, { nv := s }, true)
  | .inf n => ((if n then 0x80 else 0x7F), {}, false)
  | .fin n m e =>
    let r := roundAt rm n m e (-6)
    let v := signed n r.1
    if 127 < v then (0x7F, overflowFlags, false)
    else if v < -128 then (0x80, overflowFlags, false)
    else ((v % 256).toNat, { nx := r.2 }, false)

/-! ### Philox (R35) -/

/-- One round on the four counter words. -/
def philoxRound (k0 k1 : Nat) (c : Nat × Nat × Nat × Nat) : Nat × Nat × Nat × Nat :=
  let p0 := 0xD2511F53 * c.1
  let p1 := 0xCD9E8D57 * c.2.2.1
  (Nat.xor (Nat.xor (p1 / 2 ^ 32) c.2.1) k0, p1 % 2 ^ 32, Nat.xor (Nat.xor (p0 / 2 ^ 32) c.2.2.2) k1, p0 % 2 ^ 32)

/-- n rounds, the key advanced after each. -/
def philoxRounds : Nat → Nat → Nat → Nat × Nat × Nat × Nat → Nat × Nat × Nat × Nat
  | 0, _, _, c => c
  | n + 1, k0, k1, c =>
    philoxRounds n ((k0 + 0x9E3779B9) % 2 ^ 32) ((k1 + 0xBB67AE85) % 2 ^ 32) (philoxRound k0 k1 c)

/-- Word 0 of Philox4x32-10. -/
def philox (key : Word) (c0 c1 c2 c3 : Nat) : Nat :=
  (philoxRounds 10 (key.toNat % 2 ^ 32) (key.toNat / 2 ^ 32)
    (c0 % 2 ^ 32, c1 % 2 ^ 32, c2 % 2 ^ 32, c3 % 2 ^ 32)).1

/-! ### Special functions (R165), in fixed point of 320 fraction bits -/

/-- One; π × 2^460 and ln 2 × 2^400, rounded down. -/
def sfuOne : Nat := 2 ^ 320
def piBits : Nat := 0x3243f6a8885a308d313198a2e03707344a4093822299f31d0082efa98ec4e6c89452821e638d01377be5466cf34e90c6cc0ac29b7c97c50dd3f8
def ln2Bits : Nat := 0xb17217f7d1cf79abc9e3b39803f2f6af40f343267298b62d8a0d175b8baafa2be7b876206debac98559552fb4afa1b10ed2e

/-- A Taylor sum in fixed point: each term is the one before times x over den of its number. -/
def taylor (x : Int) (den : Nat → Nat) : Nat → Nat → Int → Int → Int
  | 0, _, _, acc => acc
  | fuel + 1, n, t, acc => taylor x den fuel (n + 1) (t * x / (sfuOne : Int) / (den (n + 1) : Int)) (acc + t)

/-- 2^f for 0 ≤ f < 1. -/
def fixExp2 (f : Nat) : Nat := (taylor (f * ln2Bits / 2 ^ 400 : Nat) (fun n => n) 90 0 sfuOne 0).toNat

/-- ± m × 2^e as a fixed-point number, rounded toward zero. -/
def toFix (neg : Bool) (m : Nat) (e : Int) : Int :=
  signed neg (if 0 ≤ e + 320 then m * 2 ^ (e + 320).toNat else m / 2 ^ (-(e + 320)).toNat)

/-- sin and cos of r, |r| ≤ π. -/
def fixSin (r : Int) : Int := taylor (-(r * r / (sfuOne : Int))) (fun n => 2 * n * (2 * n + 1)) 70 0 r 0
def fixCos (r : Int) : Int := taylor (-(r * r / (sfuOne : Int))) (fun n => 2 * n * (2 * n - 1)) 70 0 sfuOne 0

/-- x reduced to [−π, π]. -/
def fixReduce (neg : Bool) (m : Nat) (e : Int) : Int :=
  let x := m * 2 ^ (e + 460).toNat % (2 * piBits)
  let r : Int := (if x < piBits then (x : Int) else (x : Int) - 2 * piBits) / 2 ^ 140
  if neg then -r else r

/-- The sum t / n + t y / (n + 2) + … of the inverse hyperbolic tangent. -/
def atanhSum (y : Int) : Nat → Nat → Int → Int → Int
  | 0, _, _, acc => acc
  | fuel + 1, n, t, acc => atanhSum y fuel (n + 2) (t * y / (sfuOne : Int)) (acc + t / (n : Int))

/-- ln m for m in (1/2, 2). -/
def fixLn (m : Nat) : Int :=
  let z := ((m : Int) - sfuOne) * sfuOne / ((m : Int) + sfuOne)
  2 * atanhSum (z * z / (sfuOne : Int)) 110 1 z 0

/-- log2 of m × 2^e, its significand taken in [0.75, 1.5). -/
def fixLog2 (m : Nat) (e : Int) : Int :=
  let E := expOf m e
  let f := m * 2 ^ (320 - m.log2)
  let up := decide (3 * sfuOne / 2 ≤ f)
  (if up then E + 1 else E) * sfuOne + fixLn (if up then f / 2 else f) * 2 ^ 400 / (ln2Bits : Int)

/-- The special functions. -/
inductive Sfu where
  | rcp | rsq | ex2 | lg2 | sin | cos | tanh
  deriving DecidableEq, Repr

/-- A fixed-point number as a value with a sticky last bit. -/
def ofFix (x : Int) : Num := .fin (decide (x < 0)) (2 * x.natAbs + 1) (-321)

/-- The integer that a value is, if it is one of small size. -/
def Num.integral (m : Nat) (e : Int) : Option Nat :=
  if 12 < expOf m e then none
  else if 0 ≤ e then some (m * 2 ^ e.toNat)
  else if m % 2 ^ (-e).toNat = 0 then some (m / 2 ^ (-e).toNat)
  else none

/-- 2^x: beyond ±2^16 every format has overflowed or vanished; of an integer, the power itself. -/
def sfuExp2 (neg : Bool) (m : Nat) (e : Int) : Num :=
  match Num.integral m e with
  | some i => .fin false 1 (signed neg i)
  | none =>
    if 16 < expOf m e then .fin false 1 (if neg then -(2 ^ 17) else 2 ^ 17)
    else
      let x := toFix neg m e
      let i := x / (sfuOne : Int)
      .fin false (2 * fixExp2 (x - i * sfuOne).toNat + 1) (i - 321)

/-- tanh |x| = (e^2x − 1) / (e^2x + 1), with the sign. -/
def sfuTanh (neg : Bool) (m : Nat) (e : Int) : Num :=
  if 7 < expOf m e then .fin neg (2 ^ 64 - 1) (-64)
  else if expOf m e < -140 then .fin neg m e
  else
    let y := 2 * (toFix false m e).toNat * 2 ^ 400 / ln2Bits
    let t := fixExp2 (y % sfuOne) * 2 ^ (y / sfuOne)
    .fin neg (2 * ((t - sfuOne) * sfuOne / (t + sfuOne)) + 1) (-321)

/-- The result of a special function on a finite nonzero argument outside its exact cases, to working precision. -/
def Sfu.exact (g : Sfu) (neg : Bool) (m : Nat) (e : Int) : Num :=
  match g with
  | .rcp =>
    let q := quotient 1 0 m e 60
    .fin neg q.1 q.2
  | .rsq =>
    let k : Nat := 2 * (120 + m.log2) + (e % 2).toNat
    let r := isqrt (2 ^ k / m)
    .fin false (2 * r + (if r * r * m = 2 ^ k then 0 else 1)) (-((e + k) / 2) - 1)
  | .ex2 => sfuExp2 neg m e
  | .lg2 => ofFix (fixLog2 m e)
  | .sin => if expOf m e < -140 then .fin neg m e else ofFix (fixSin (fixReduce neg m e))
  | .cos => if expOf m e < -140 then .fin false (2 ^ 64 - 1) (-64) else ofFix (fixCos (fixReduce neg m e))
  | .tanh => sfuTanh neg m e

/-- FEX2 of a finite value in its exact cases: 2^n for an integer n whose power the format holds. -/
def exactExp2 (f : Fmt) (n : Bool) (m : Nat) (e : Int) : Option (Nat × Fl) :=
  match Num.integral m e with
  | some i =>
    let r := f.round .rne false false 1 (signed n i)
    if r.2 = noFlags then some r else none
  | none => none

/-- FLG2 of a positive value in its exact cases: a power of two. -/
def exactLog2 (f : Fmt) (m : Nat) (e : Int) : Option (Nat × Fl) :=
  if m = 2 ^ m.log2 then some ((f.round .rne false (decide (expOf m e < 0)) (expOf m e).natAbs 0).1, {}) else none

/-- The exact cases of R165, with their flags. -/
def Sfu.special (g : Sfu) (f : Fmt) (a : Nat) (x : Num) : Option (Nat × Fl) :=
  let one := (f.round .rne false false 1 0).1
  match x with
  | .nan s => some (f.nanOf s)
  | .inf n =>
    some (match g with
      | .rcp => ((if n then f.signBit else 0), {})
      | .rsq => if n then (f.nanBits, invalidFlag) else (0, {})
      | .ex2 => if n then (0, {}) else (f.infBits false, {})
      | .lg2 => if n then (f.nanBits, invalidFlag) else (f.infBits false, {})
      | .sin | .cos => (f.nanBits, invalidFlag)
      | .tanh => (f.withSign n one, {}))
  | .fin n m e =>
    if m = 0 then
      some (match g with
        | .rcp | .rsq => (f.infBits n, { dz := true })
        | .ex2 | .cos => (one, {})
        | .lg2 => (f.infBits true, { dz := true })
        | .sin | .tanh => (a, {}))
    else match g with
      | .rsq => if n then some (f.nanBits, invalidFlag) else none
      | .ex2 => exactExp2 f n m e
      | .lg2 => if n then some (f.nanBits, invalidFlag) else exactLog2 f m e
      | _ => none

/-- The F32 error bound of a special function in ulps, and whether it has the absolute bound 2^−22 too (R165). -/
def Sfu.ulps : Sfu → Nat
  | .rcp | .rsq => 1
  | _ => 2
def Sfu.absolute : Sfu → Bool
  | .lg2 | .sin | .cos => true
  | _ => false

/-- An F32 pattern lies within the bound of R165 of an exact result. -/
def Sfu.within (g : Sfu) (cand : Nat) (exact : Num) : Bool :=
  match fmtF32.read cand, exact with
  | .fin n m e, .fin k p q =>
    let lsb := max (expOf p q) (-126) - 23
    let base := min (min e q) (-200)
    let d := (signed n (m * 2 ^ (e - base).toNat) - signed k (p * 2 ^ (q - base).toNat)).natAbs
    let bound := g.ulps * 2 ^ (lsb - base).toNat
    d ≤ (if g.absolute then max bound (2 ^ (-22 - base).toNat) else bound)
  | _, _ => false

/-- The number of a special function, its fn5. -/
def Sfu.code : Sfu → Nat
  | .rcp => 0
  | .rsq => 1
  | .ex2 => 2
  | .lg2 => 3
  | .sin => 4
  | .cos => 5
  | .tanh => 6

/-- A special function in a format (R165): 16-bit results correctly rounded; an F32 result free within its bound, a fixed function
of the input. Outside the exact cases nx is set, uf where the result is tiny, of with an overflow. -/
def Sfu.eval (g : Sfu) (f : Fmt) (free : Nat → Nat → Nat) (a : Nat) : Nat × Fl :=
  match g.special f a (f.read a), f.read a with
  | some r, _ => r
  | none, .fin n m e =>
    let x := g.exact n m e
    let near := f.deliver .rne false (x, {})
    let cand := free g.code a % 2 ^ 32
    let bits := if f = fmtF32 && !near.2.of && g.within cand x then cand else near.1
    let tiny := match f.read bits with
      | .fin _ p q => dyadicLt p q 1 f.emin
      | _ => false
    (bits, { nx := true, uf := tiny, of := near.2.of })
  | none, _ => (f.nanBits, {})

end Sys2Proof.Machine
end

