-- ==== Sys2Proof/Machine/Operands.lean ====
section
/-!
DEFINITION. Operands of the vector unit (R13, R50, R51, R83, R86, R158 to R161): registers, pairs, broadcasts, masks and flag sets as
sources, the rounding mode in force, and the frame that writes a vector, a mask or a scalar.
-/

namespace Sys2Proof.Machine

/-- Types that hold a 64-bit element in a pair, and two 16-bit elements in a lane (R159). -/
def isPairTy (ty : Nat) : Bool := ty = 1 || ty = 7
def isPacked (ty : Nat) : Bool := ty = 2 || ty = 3 || ty = 6 || ty = 17

/-- Bits of an element of a type, and how many elements an operand holds (R159). -/
def elemBits (ty : Nat) : Nat := if isPairTy ty then 64 else if isPacked ty then 16 else 32
def elemCount (ty : Nat) : Nat := if isPacked ty then 256 else 128

/-- Bytes of a lane's element in memory (R175). -/
def laneBytes (ty : Nat) : Nat := if isPairTy ty then 8 else 4

/-! ### Vector registers -/

/-- The value of a vector register. -/
def Core.v (c : Core) (k : Nat) : VReg := c.vregs.toList.getD k (Vector.replicate 128 0)

/-- A vector register is full. -/
def Core.vIsFull (c : Core) (k : Nat) : Bool := c.vfull.getLsbD k

/-- A vector instruction executes after every instruction of a running sequence (R220). Its sources are read first: a `!` read of a
register that the sequence has marked empty freezes at issue (R50, R127). -/
def vectorIssue : Act Unit := fun s =>
  if s.core.rep.state = 2 && s.core.repAt.isNone then .error (.stall 0) else .ok ((), s)

/-- ReadOperand of R50 for a vector register, renamed. -/
def readV (r : Nat) (t : BitVec 1) : Act VReg := fun s =>
  let k := s.core.vname r
  if s.core.vIsFull k || s.core.repOwns true k then .ok (s.core.v k, s)
  else if t = 1 then .error (.trap { cause := 0x02 })
  else .error (.stall (s.core.emptyReason true k))

/-- A renamed pair must stay even (R65, R99). -/
def renamedEven (r : Nat) : Act Unit := fun s =>
  if s.core.vname r % 2 = 0 then .ok ((), s) else .error (.trap { cause := 0x01 })

/-- The second register of a pair: the renamed even number plus one. -/
def readOdd (r : Nat) (t : BitVec 1) : Act VReg := fun s =>
  let k := s.core.vname r + 1
  if s.core.vIsFull k || s.core.repOwns true k then .ok (s.core.v k, s)
  else if t = 1 then .error (.trap { cause := 0x02 })
  else .error (.stall (s.core.emptyReason true k))

/-- The lanes of a register as numbers. -/
def VReg.nats (v : VReg) : List Nat := v.toList.map (·.toNat)

/-- A vector operand of a type: 128 lane values, 64 bits each for a pair (R13, R159). -/
def readLanes (ty : Nat) (r : Nat) (t : BitVec 1) : Act (List Nat) := do
  if isPairTy ty then
    renamedEven r
    let lo ← readV r t
    let hi ← readOdd r t
    pure (List.zipWith (fun (a b : Nat) => a + b * 2 ^ 32) (VReg.nats lo) (VReg.nats hi))
  else
    let v ← readV r t
    pure (VReg.nats v)

/-- The element that a broadcast scalar gives to every lane (R83). -/
def broadcast (ty : Nat) (x : Word) : Nat :=
  if isPairTy ty then x.toNat
  else if isPacked ty then x.toNat % 2 ^ 16 * (2 ^ 16 + 1)
  else x.toNat % 2 ^ 32

/-- The vb operand: a vector, or a broadcast scalar (R83). -/
def readVb (ty : Nat) (bs : BitVec 1) (vb : BitVec 5) (t : BitVec 1) : Act (List Nat) := do
  if bs = 1 then
    let x ← readS vb t
    pure (List.replicate 128 (broadcast ty x))
  else readLanes ty vb.toNat t

/-! ### The prefix (R86) -/

/-- What governs an instruction without a prefix. -/
def Pfx.default : Pfx := ⟨0, false, 6, false, 0⟩

/-- The prefix in force. -/
def prefixOf (c : Core) : Pfx := c.pfx.getD Pfx.default

/-- A mask by number: m0 is always true. -/
def maskOf (c : Core) (k : Nat) : Mask := if k = 0 then BitVec.allOnes 128 else c.masks.toList.getD k 0

/-- The governing mask. -/
def activeMask (c : Core) : Mask := maskOf c (prefixOf c).mask.toNat

/-- Bit i of the mask for each lane. -/
def laneBits (m : Mask) : List Bool := (List.range 128).map fun i => m.getLsbD i

/-- A mask from its bits, lane 0 first. -/
def maskFrom (bs : List Bool) : Mask :=
  BitVec.ofNat 128 (bs.foldr (fun b n => 2 * n + (if b then 1 else 0)) 0)

/-- A mask or a flag set by the number of R98. -/
def maskOrFlags (c : Core) (k : Nat) : Mask :=
  match k with
  | 8 => c.flags.nv
  | 9 => c.flags.dz
  | 10 => c.flags.of
  | 11 => c.flags.uf
  | 12 => c.flags.nx
  | k => maskOf c k

/-- The lowest-numbered active lane. -/
def lowestActive (m : Mask) : Option Nat := (List.range 128).find? fun i => m.getLsbD i

/-! ### The rounding mode in force (R32, R33) -/

/-- FCSR as the instruction in issue has it: a captured one stands before whatever followed its REPX (R53, R220). -/
def Core.modeReg (c : Core) : BitVec 3 := if c.repAt.isSome then c.rep.fcsr else c.fcsr

/-- The mode's number: the prefix's, or FCSR's where it is dynamic. -/
def modeNumber (c : Core) : Nat :=
  let rm := (prefixOf c).rm.toNat
  if rm = 6 then c.modeReg.toNat else rm

/-- A mode by number; 5 is stochastic with the word given, for conversions, else nearest even (R33). -/
def modeOf (n : Nat) (word : Option Nat) : Rm :=
  match n with
  | 1 => .rtz
  | 2 => .rdn
  | 3 => .rup
  | 4 => .rna
  | 5 => match word with
    | some w => .sr w
    | none => .rne
  | _ => .rne

/-- The mode of an instruction that is no conversion. -/
def arithMode (c : Core) : Rm := modeOf (modeNumber c) none

/-- The mode of a conversion, with the random word of an element index (R34). -/
def convMode (c : Core) (index : Nat) : Rm :=
  if modeNumber c = 5 then .sr (philox c.seed (index % 2 ^ 32) (index / 2 ^ 32 % 2 ^ 32) 0 0) else modeOf (modeNumber c) none

/-! ### The frame (R160) -/

/-- A destination that is empty waits at issue (R51), both registers of a pair. -/
def awaitV (ty : Nat) (r : Nat) : Act Unit := fun s =>
  let k := s.core.vname r
  let full (k : Nat) : Bool := s.core.vIsFull k || s.core.repOwns true k
  if isPairTy ty && k % 2 ≠ 0 then .error (.trap { cause := 0x01 })
  else if full k && (!isPairTy ty || full (k + 1)) then .ok ((), s)
  else .error (.stall (s.core.emptyReason true (if full k then k + 1 else k)))

/-- A vector from its lanes. -/
def VReg.ofNats (l : List Nat) : VReg := Vector.ofFn fun i => BitVec.ofNat 32 (l.getD i.val 0)

/-- The lanes of a destination under the frame: new where active, 0 or the old value elsewhere. -/
def framed (m : Mask) (zero : Bool) (old new : List Nat) : List Nat :=
  List.zipWith (fun (a : Bool) (x : Nat × Nat) => if a then x.2 else if zero then 0 else x.1) (laneBits m)
    (List.zipWith (fun a b => (a, b)) old new)

/-- A vector register's value replaced. -/
def Core.putV (c : Core) (k : Nat) (v : VReg) : Core := { c with vregs := c.vregs.setIfInBounds k v }

/-- A vector destination written under the frame (R160). -/
def Core.writeLanes (c : Core) (ty : Nat) (r : Nat) (vals : List Nat) : Core :=
  let k := c.vname r
  let m := activeMask c
  let z := (prefixOf c).zero
  if isPairTy ty then
    let c' := c.putV k (VReg.ofNats (framed m z (VReg.nats (c.v k)) (vals.map (· % 2 ^ 32))))
    c'.putV (k + 1) (VReg.ofNats (framed m z (VReg.nats (c.v (k + 1))) (vals.map (· / 2 ^ 32))))
  else c.putV k (VReg.ofNats (framed m z (VReg.nats (c.v k)) vals))

/-- A mask destination written under the frame (R86, R167). -/
def Core.writeMask (c : Core) (k : Nat) (new : Mask) : Core :=
  let m := activeMask c
  let old := maskOf c k
  let v := (new &&& m) ||| (if (prefixOf c).zero then 0 else old &&& ~~~ m)
  if k = 0 then c else { c with masks := c.masks.setIfInBounds k v }

end Sys2Proof.Machine
end

