-- ==== Sys2Proof/Machine/Flags.lean ====
section
/-!
DEFINITION. Flag computations: the sticky lane flags (R36), the crest register (R171), and the flags of the matrix engine (R41, R198).
-/

namespace Sys2Proof.Machine

/-- The lanes that raise a flag, as a mask. -/
def flagLanes (get : Fl → Bool) (fls : List Fl) : Mask := maskFrom (fls.map get)

/-- Flags raised lane by lane, in active lanes only (R36). -/
def Core.raise (c : Core) (fls : List Fl) : Core :=
  let m := activeMask c
  { c with flags :=
    ⟨c.flags.nv ||| (flagLanes (·.nv) fls &&& m), c.flags.dz ||| (flagLanes (·.dz) fls &&& m),
     c.flags.of ||| (flagLanes (·.of) fls &&& m), c.flags.uf ||| (flagLanes (·.uf) fls &&& m),
     c.flags.nx ||| (flagLanes (·.nx) fls &&& m)⟩ }

/-- Flags of one lane, for a list of 128. -/
def oneLane (i : Nat) (fl : Fl) : List Fl := (List.range 128).map fun k => if k = i then fl else noFlags

/-- Flags raised in the lowest-numbered active lane; none where no lane is active (R36, R43). -/
def Core.raiseLowest (c : Core) (fl : Fl) : Core :=
  match lowestActive (activeMask c) with
  | some i => c.raise (oneLane i fl)
  | none => c

/-- The flag sets that the bits of a write to FLCLR name are cleared (R154). -/
def FlagSets.clear (f : FlagSets) (v : Word) : FlagSets :=
  ⟨if v.getLsbD 0 then 0 else f.nv, if v.getLsbD 1 then 0 else f.dz, if v.getLsbD 2 then 0 else f.of,
   if v.getLsbD 3 then 0 else f.uf, if v.getLsbD 4 then 0 else f.nx⟩

/-- CregMag of R171: bits 30:0 as a magnitude, +0 for a NaN pattern. -/
def cregMag (creg : BitVec 34) : Nat :=
  let x := creg.toNat % 2 ^ 31
  if (fmtF32.read x).isNan then 0 else x

/-- CrestFold of R171 on a value: its magnitude as an F32 pattern rounded up, NaN and infinity noted. -/
def crestFold (creg : BitVec 34) (x : Num) : BitVec 34 :=
  match x with
  | .nan _ => creg ||| (1#34 <<< 32)
  | .inf _ =>
    let creg := creg ||| (1#34 <<< 33)
    let m := fmtF32.infBits false
    if cregMag creg < m then (creg &&& (3#34 <<< 32)) ||| BitVec.ofNat 34 m else creg
  | .fin _ m e =>
    let r := (fmtF32.round .rup false false m e).1
    if cregMag creg < r then (creg &&& (3#34 <<< 32)) ||| BitVec.ofNat 34 r else creg

/-- Values of active lanes folded into CREG, in order. -/
def Core.fold (c : Core) (xs : List (List Num)) : Core :=
  { c with creg := (List.zipWith (fun (a : Bool) ns => if a then ns else []) (laneBits (activeMask c)) xs).flatten.foldl crestFold c.creg }

/-- MFL with bits set: invalid, overflow, inexact, saturated (R55, R198). -/
def Core.raiseMfl (c : Core) (nv of nx isat : Bool) : Core :=
  { c with mfl := c.mfl ||| ((if nv then 1 else 0) ||| (if of then 2 else 0) ||| (if nx then 4 else 0) ||| (if isat then 8 else 0)) }

end Sys2Proof.Machine
end

