-- ==== Sys2Proof/Machine/Crest.lean ====
section
/-!
DEFINITION. Crest contexts (R267 to R272) and the package skip flag (R401): contributions, releases, landings, cancels.
-/

namespace Sys2Proof.Machine

/-- The fields of a context word (R268). -/
def cxStep (w : Word) : BitVec 32 := w.extractLsb' 32 32
def cxSkip (w : Word) : Bool := w.getLsbD 21
def cxTgt (w : Word) : Nat := (w.extractLsb' 18 3).toNat
def cxPart (w : Word) : Nat := (w.extractLsb' 6 12).toNat
def cxScope (w : Word) : Nat := (w.extractLsb' 4 2).toNat
def cxCtx (w : Word) : Nat := (w.extractLsb' 0 4).toNat

/-- The most participants of a scope (R268). -/
def scopeCores (scope : Nat) : Nat :=
  match scope with
  | 0 => 16
  | 1 => 768
  | _ => 3072

/-- A context word that CREST and BAR accept (R268). -/
def cxLegal (w : Word) : Bool :=
  cxScope w ≠ 3 && cxTgt w ≠ 7 && cxPart w ≠ 0 && cxPart w ≤ scopeCores (cxScope w)

/-- emax of a target element format (R28, R268): E2M1, E4M3, E5M2, E3M4, MI8, E2M3, E3M2. -/
def targetEmax (tgt : Nat) : Int :=
  match tgt with
  | 0 => 2
  | 1 => 8
  | 2 => 15
  | 3 => 4
  | 4 => 0
  | 5 => 2
  | _ => 4

/-- A context of a core's cluster, mesa or package. -/
def crestAt (s : State) (core scope ctx : Nat) : Crest :=
  match scope with
  | 0 => (s.clusterAt (clusterOf core)).crests.toList.getD ctx Crest.idle
  | 1 => (s.pkg.mesaCrests.toList.getD (mesaOf core) (Vector.replicate 16 Crest.idle)).toList.getD ctx Crest.idle
  | _ => s.pkg.crests.toList.getD ctx Crest.idle

/-- The context replaced. -/
def setCrest (core scope ctx : Nat) (x : Crest) (s : State) : State :=
  match scope with
  | 0 => s.modCluster (clusterOf core) fun c => { c with crests := c.crests.setIfInBounds ctx x }
  | 1 => s.modPkg fun p =>
      let m := p.mesaCrests.toList.getD (mesaOf core) (Vector.replicate 16 Crest.idle)
      { p with mesaCrests := p.mesaCrests.setIfInBounds (mesaOf core) (m.setIfInBounds ctx x) }
  | _ => s.modPkg fun p => { p with crests := p.crests.setIfInBounds ctx x }

/-- What a core contributes (R269): magnitude, NaN, infinity. BAR contributes nothing. -/
def contribution (c : Core) (bar : Bool) : Lane × Bool × Bool :=
  if bar then (0, false, false)
  else (BitVec.ofNat 32 (cregMag c.creg),
    c.creg.getLsbD 32 || (fmtF32.read (c.creg.toNat % 2 ^ 31)).isNan, c.creg.getLsbD 33)

/-- A context with a contribution added (R269). -/
def Crest.contribute (x : Crest) (core : Nat) (w : Word) (c : Lane × Bool × Bool) : Crest :=
  let x := if x.isOpen then x else { Crest.idle with isOpen := true, param := w &&& ~~~ 0x3F#64 }
  { x with
    mag := if (fmtF32.read x.mag.toNat).lt (fmtF32.read c.1.toNat) then c.1 else x.mag
    nan := x.nan || c.2.1
    inf := x.inf || c.2.2
    count := x.count + 1
    parties := x.parties ++ [core] }

/-- The round is complete. -/
def Crest.complete (x : Crest) : Bool := x.count = cxPart x.param

/-- The scale and NF of a release (R269). -/
def Crest.scale (x : Crest) : BitVec 8 :=
  if x.nan || x.mag = 0x7F80_0000 then 0xFF else scaleOf (fmtF32.read x.mag.toNat) (targetEmax (cxTgt x.param))
def Crest.nf (x : Crest) : Bool := x.nan || x.inf || x.mag = 0x7F80_0000

/-- The skip flag written (R401). -/
def setSkip (step : BitVec 32) (flag : Bool) (s : State) : State := s.modPkg fun p => { p with skipStep := step, skipFlag := flag }

/-- A release: the skip flag first, then a landing for every participant; the context is idle (R269). -/
def releaseCrest (core scope ctx : Nat) (x : Crest) (s : State) : State :=
  let s := if x.nf && cxSkip x.param then setSkip (cxStep x.param) true s else s
  let s := setCrest core scope ctx Crest.idle s
  { s with net := s.net ++ x.parties.map fun p => .crsc p scope ctx x.scale x.nf }

/-- A contribution at its context (R269). -/
def contributeAt (core scope ctx : Nat) (w : Word) (c : Lane × Bool × Bool) (s : State) : State :=
  let x := (crestAt s core scope ctx).contribute core w c
  if x.complete then releaseCrest core scope ctx x s else setCrest core scope ctx x s

/-- A release in a core's CRSC. -/
def Core.land (c : Core) (ctx : Nat) (scale : BitVec 8) (nf : Bool) : Core :=
  { c with crscScale := scale, crscNf := nf, crscCtx := BitVec.ofNat 4 ctx, crscValid := true }

/-- A cancelled round releases its participants with SCALE 0xFF and NF 1, and sets no skip flag (R272). -/
def cancelCrest (core scope ctx : Nat) (s : State) : State :=
  let x := crestAt s core scope ctx
  if !x.isOpen then s
  else
    let s := setCrest core scope ctx Crest.idle s
    { s with net := s.net ++ x.parties.map fun p => .crsc p scope ctx 0xFF true }

end Sys2Proof.Machine
end

