-- ==== Sys2Proof/Machine/HostIf.lean ====
section
/-!
DEFINITION. Messages at their destination (R255, R256), and the host interface (R414 to R423, R427): the host queue, package
service messages, host messages, device memory and its bias, host snoops, the host link.
-/

namespace Sys2Proof.Machine

/-! ### Messages at a channel (R255) -/

/-- The lowest free slot of a channel. -/
def freeSlotOf (u : BitVec 4) : Option Nat := (List.range 4).find? fun j => !u.getLsbD j

/-- The bytes of a message slot: the message, and zero beyond its length. -/
def padded (n : Nat) (bs : List Byte) : List Byte := bs.take n ++ List.replicate (n - bs.length) 0

/-- A message placed in a channel that has a free slot: its bytes, USED, PEND, HEAD, and the acquire that it may carry (R58). -/
def placeMessage (dst ch sender : Nat) (bytes : List Byte) (cairn : Option Word) (s : State) : State :=
  match freeSlotOf (chUsed (chWord s dst ch)) with
  | none => s
  | some j =>
    let old := s
    let s := physPut s (scratch s dst (msgOffset ch j)) (padded 64 bytes)
    let w := chWord s dst ch
    let first := decide (chPend w = 0)
    let s := setChField s dst ch 13 4 (chUsed w ||| (1#4 <<< j)).toNat
    let s := if first then setChField s dst ch 11 2 j else s
    let s := setChField s dst ch 8 3 (chPend w + 1)
    let m : Buffered :=
      { ch := ch, slot := j, sender := sender, len := bytes.length, cairn := cairn, asked := false, grant := none, started := false }
    let s := s.modCore dst fun c => { c with buffered := c.buffered ++ [m] }
    let s := if first || chAoa w then requestAcquire dst ch j s else s
    channelReady old dst ch s

/-! ### The host's memory and interrupts -/

/-- An MSI-X vector raised (R415). -/
def raiseVector (v : Nat) (s : State) : State := s.modPkg fun p => { p with msix := p.msix ||| (1#4 <<< v) }

/-- A byte written at a host address: through the host window where the window holds it (R423). -/
def hostSet (a : Nat) (v : Byte) (s : State) : State :=
  let o := (a + 2 ^ 64 - s.pkg.hwbase.toNat) % 2 ^ 64
  if o < 2 ^ 40 then physSet s (physAddr s.pkg.pkgid.toNat 3 0 o) v else { s with host := cellSet s.host a v }

/-- Bytes written from a host address up. -/
def hostPut (a : Nat) : List Byte → State → State
  | [], s => s
  | b :: bs, s => hostPut (a + 1) bs (hostSet (a % 2 ^ 64) b s)

/-! ### The host queue (R418, R419) -/

/-- The 64 bytes of the entry for part n. -/
def hqEntry (p : Package) (sender ch len part n : Nat) (data : List Byte) : List Byte :=
  let phase := (1 + n / 2 ^ hqLog p) % 2
  leBytes 8 (sender % 2 ^ 12 + ch % 64 * 2 ^ 12 + len % 128 * 2 ^ 18 + part * 2 ^ 25 + phase * 2 ^ 26 + n % 2 ^ 32 * 2 ^ 32) ++
    padded 56 data

/-- An entry written at its place of the ring. -/
def hqWrite (n : Nat) (e : List Byte) (s : State) : State :=
  hostPut (s.pkg.hqbase.toNat + 64 * (n % 2 ^ hqLog s.pkg)) e s

/-- A message placed in the host queue: its second entry first, then HQTAIL and vector 0 (R418). -/
def hqPut (sender ch : Nat) (bytes : List Byte) (s : State) : State :=
  let n := s.pkg.hqtail.toNat
  let two := decide (hqCost bytes = 2)
  let s := if two then hqWrite ((n + 1) % 2 ^ 32) (hqEntry s.pkg sender ch bytes.length 1 ((n + 1) % 2 ^ 32) (bytes.drop 56)) s else s
  let s := hqWrite n (hqEntry s.pkg sender ch bytes.length 0 n (bytes.take 56)) s
  raiseVector 0 (s.modPkg fun p => { p with hqtail := p.hqtail + (if two then 2 else 1) })

/-- PACKAGE_SERVICE_MESSAGE_LEAVE (R420). -/
def actPackageServiceMessageLeave (s : State) : State :=
  match s.pkg.services with
  | [] => s
  | (ch, bytes) :: rest => if hqRoom s bytes then hqPut 0xFFE ch bytes (s.modPkg fun p => { p with services := rest }) else s
def execPackageServiceMessageLeave (s : State) : Host.Outcome State Fault Refusal := .next (actPackageServiceMessageLeave s)

/-! ### Host messages (R417) -/

/-- The fields of a message word (R95): destination, channel, length. -/
def mwDst (w : Word) : Nat := (w.extractLsb' 0 12).toNat
def mwCh (w : Word) : Nat := (w.extractLsb' 12 6).toNat
def mwLen (w : Word) : Nat := (w.extractLsb' 18 7).toNat

/-- A host message refused. -/
def countRefused (s : State) : State :=
  s.modPkg fun p => { p with hmstat := if p.hmstat = BitVec.allOnes 32 then p.hmstat else p.hmstat + 1 }

/-- A write to HMSG (R417): its message word, and the bytes that it carries in bytes 127:64. A write of another size is discarded. -/
def hostMessage (v : Word) (data : List Byte) (s : State) : State :=
  if !s.pkg.bootReady || data.length ≠ 64 then s
  else if mwLen v = 0 || 64 < mwLen v || 0xC00 ≤ mwDst v || 16 ≤ s.pkg.hostMsgs.length then countRefused s
  else s.modPkg fun p => { p with hostMsgs := p.hostMsgs ++ [(v, padded (mwLen v) data)] }

/-- HMSG (R417), in its turn among the host's writes. -/
def actHmsg (v : Word) (data : List Byte) (s : State) : State := hostInTurn (.hmsg v data) (hostMessage v data) s
def execHmsg (v : Word) (data : List Byte) (s : State) : Host.Outcome State Fault Refusal := .next (actHmsg v data s)

/-- The issuer of what no core has issued. -/
def noIssuer : Issuer := ⟨0, 0, 0, 0, 0⟩

/-- The first host message that can reserve a place, those behind a waiting one for the same channel kept back. -/
def hostMessageReady (s : State) : List (Word × List Byte) → List (Nat × Nat) → Option (Word × List Byte)
  | [], _ => none
  | m :: ms, waiting =>
    let to_ := (mwDst m.1, mwCh m.1)
    if waiting.contains to_ || channelFull s to_.1 to_.2 then hostMessageReady s ms (to_ :: waiting) else some m

/-- HOST_MESSAGE_LEAVE (R417). -/
def actHostMessageLeave (s : State) : State :=
  match hostMessageReady s s.pkg.hostMsgs [] with
  | none => s
  | some m =>
    let s := s.modPkg fun p => { p with hostMsgs := p.hostMsgs.erase m }
    { s with net := s.net ++ [.msg 0xFFF 0xFFF (mwDst m.1) (mwCh m.1) m.2 none noIssuer] }
def execHostMessageLeave (s : State) : Host.Outcome State Fault Refusal := .next (actHostMessageLeave s)

/-! ### Device memory (R421, R422) -/

/-- The physical address of an HDM offset (R415). -/
def hdmPhys (s : State) (h : Nat) : Nat := physAddr s.pkg.pkgid.toNat 0 (h / 2 ^ 28) (h % 2 ^ 28)

/-- The HDM range. -/
def hdmSize : Nat := 3072 * 2 ^ 28

/-- Every L1's committed bytes of a block performed at home, those of the package's cores that are listed. -/
def pullBlock (blk : Nat) (s : State) : State := s.listed.foldl (fun s k => writeBackAll k (fun l => l.phys = blk) s) s

/-- A page under a bias flip holds its reads (R422). -/
def readHeld (s : State) (h : Nat) : Bool := s.pkg.bfbusy && h / 4096 = s.pkg.bfat.toNat

/-- A host read of one 64-byte sector served, its answer after those of the reads served with it (R421). -/
def serveRead (a : Word) (s : State) : State :=
  let blk := blockOf (hdmPhys s a.toNat)
  let s := if s.pkg.hostBias.contains (a.toNat / 4096) then s else pullBlock blk s
  s.modPkg fun p => { p with hostData := p.hostData ++ [(a, physBytes s blk 64)] }

/-- Host reads served together: their answers replace the earlier ones. -/
def serveReads (as : List Word) (s : State) : State :=
  as.foldl (fun s a => serveRead a s) (s.modPkg fun p => { p with hostData := [] })

/-- CXL_MEM_READ (R421, R422). -/
def actCxlMemRead (addr : Word) (s : State) : State :=
  if hdmSize ≤ addr.toNat then s
  else if readHeld s addr.toNat then s.modPkg fun p => { p with heldReads := p.heldReads ++ [addr] }
  else serveReads [addr] s
def execCxlMemRead (addr : Word) (s : State) : Host.Outcome State Fault Refusal := .next (actCxlMemRead addr s)

/-- CXL_MEM_WRITE (R421): the bytes of one sector merged at home; no copy in L1 is invalidated. -/
def actCxlMemWrite (addr : Word) (data : List Byte) (s : State) : State :=
  let off := addr.toNat % 64
  let n := min data.length (64 - off)
  if hdmSize ≤ addr.toNat then s
  else homeMerge s (blockOf (hdmPhys s addr.toNat)) (placed off (data.take n)) (byteMask off n) 0 0
def execCxlMemWrite (addr : Word) (data : List Byte) (s : State) : Host.Outcome State Fault Refusal := .next (actCxlMemWrite addr data s)

/-- HOST_SNOOP (R79, R423): every L1 answers from committed bytes, which go home. -/
def actHostSnoop (addr : Word) (s : State) : State := pullBlock (blockOf addr.toNat) s
def execHostSnoop (addr : Word) (s : State) : Host.Outcome State Fault Refusal := .next (actHostSnoop addr s)

/-- A line of a page of HDM. -/
def linePage (s : State) (page : Nat) (l : Line) : Bool :=
  kindOf l.phys = 0 && l.phys / 4096 = hdmPhys s (page * 4096) / 4096

/-- A write to BFGO (R422): BUSY, the page and the bias of the flip taken; towards host bias every L1 writes back its committed
sectors of the page and invalidates its clean ones. -/
def startFlip (s : State) : State :=
  let page := s.pkg.bfpage.toNat
  let s := s.modPkg fun p => { p with bfbusy := true, bfat := p.bfpage, bfto := p.bfbias }
  if s.pkg.bfto && !s.pkg.hostBias.contains page then s.listed.foldl (fun s k => purgeLines k (linePage s page) s) s else s

/-- BFGO (R416, R422): a write waits while BUSY is 1. -/
def actBfgo (v : Word) (s : State) : State := hostInTurn (.bfgo v) (fun s => if s.pkg.bfbusy then s.defer (.bfgo v) else startFlip s) s
def execBfgo (v : Word) (s : State) : Host.Outcome State Fault Refusal := .next (actBfgo v s)

/-- BIAS_FLIP_COMPLETE (R422). -/
def actBiasFlipComplete (s : State) : State :=
  if !s.pkg.bfbusy then s
  else
    let page := s.pkg.bfat.toNat
    let rest := s.pkg.hostBias.filter (· ≠ page)
    let s := s.modPkg fun p =>
      { p with bfbusy := false, bfcount := p.bfcount + 1, hostBias := if p.bfto then page :: rest else rest }
    match s.pkg.heldReads with
    | [] => s
    | held => serveReads held (s.modPkg fun p => { p with heldReads := [] })
def execBiasFlipComplete (s : State) : Host.Outcome State Fault Refusal := .next (actBiasFlipComplete s)

/-! ### The host link (R427) -/

/-- HOST_LINK_DOWN. -/
def actHostLinkDown (s : State) : State :=
  if s.pkg.linkUp then s.modPkg fun p => { p with linkUp := false, linkDrops := 0, linkDownCyc := p.cyc } else s
def execHostLinkDown (s : State) : Host.Outcome State Fault Refusal := .next (actHostLinkDown s)

/-- HOST_LINK_UP: the drop is reported on channel 5. -/
def actHostLinkUp (s : State) : State :=
  if s.pkg.linkUp then s
  else postService 5 (serviceBody 3 0 s.pkg.linkDrops.toNat 0 s.pkg.linkDownCyc) (s.modPkg fun p => { p with linkUp := true })
def execHostLinkUp (s : State) : Host.Outcome State Fault Refusal := .next (actHostLinkUp s)

end Sys2Proof.Machine
end

