-- ==== Sys2Proof/Machine/Sched.lean ====
section
/-!
DEFINITION. The scheduler (R56 to R59, R326, R331 to R339, R351 to R356): launch records and cursors, entering an activation, the
choice at a boundary, stealing, yield deadlines, spatial pre-emption.
-/

namespace Sys2Proof.Machine

/-! ### Launch records (R326) and cursors (R331, R333) -/

/-- The doubleword at a byte offset of a record. -/
def recWord (r : List Byte) (off : Nat) : Nat := leValue ((r.drop off).take 8)

/-- Fields of a launch record. -/
def lrEpc (r : List Byte) : Word := BitVec.ofNat 64 (recWord r 0)
def lrSeed (r : List Byte) : Bool := recWord r 8 % 2 = 1
def lrLat (r : List Byte) : Bool := recWord r 8 / 2 % 2 = 1
def lrSteal (r : List Byte) : Nat := recWord r 8 / 4 % 4
def lrNdim (r : List Byte) : Nat := recWord r 8 / 16 % 4
def lrDimX (r : List Byte) : Nat := recWord r 16 % 2 ^ 21
def lrDimY (r : List Byte) : Nat := if lrNdim r < 2 then 1 else recWord r 16 / 2 ^ 21 % 2 ^ 21
def lrDimZ (r : List Byte) : Nat := if lrNdim r < 3 then 1 else recWord r 16 / 2 ^ 42 % 2 ^ 21
def lrFirst (r : List Byte) : Nat := recWord r 24 % 2 ^ 12
def lrCount (r : List Byte) : Nat := recWord r 24 / 2 ^ 12 % 2 ^ 12
def lrMemb (r : List Byte) : Nat := recWord r 24 / 2 ^ 24 % 2 ^ 16
def lrArgs (r : List Byte) : Word := BitVec.ofNat 64 (recWord r 32)
def lrStamp (r : List Byte) : Nat := recWord r 40 % 2 ^ 32

/-- The core set of a record, in ascending order (R326). -/
def coreSet (s : State) (r : List Byte) : List Nat :=
  ((List.range (lrCount r)).map (lrFirst r + ·)).filter fun i => (lrMemb r).testBit (i % 16) && !(s.coreAt i).fencedOff

/-- LIDX of index n (R331, R54). -/
def lidxOf (r : List Byte) (n : Nat) : Word :=
  let x := n % lrDimX r
  let y := n / lrDimX r % lrDimY r
  let z := n / (lrDimX r * lrDimY r)
  BitVec.ofNat 64 (x + y * 2 ^ 21 + z * 2 ^ 42)

/-- A cursor is exhausted. -/
def LaunchSlot.exhausted (x : LaunchSlot) : Bool := decide (x.last < x.next)

/-- The launches that map a slot to a core. -/
def launchesOf (s : State) (k : Nat) : List Launch := s.pkg.launches.filter fun l => l.slots.any (·.core = k)

/-- The cursors that a core holds. -/
def cursorCount (s : State) (k : Nat) : Nat := ((s.pkg.launches.flatMap (·.slots)).filter (·.core = k)).length

/-- The first unexhausted cursor of a class that a core serves: launch number and slot position (R334). -/
def cursorFor (s : State) (k : Nat) (lat : Bool) : Option (Nat × Nat) :=
  s.pkg.launches.findSome? fun l =>
    if lrLat l.record = lat then
      (l.slots.findIdx? fun x => x.core = k && !x.exhausted).map (l.number, ·)
    else none

/-- A commander's request whose launch is in the table no longer names none: its number may be given anew. -/
def Commander.forget (ls : List Launch) (c : Commander) : Commander :=
  if ls.any (·.number = c.pvof) then c else { c with pvof := 64 }

/-- A launch is retired when every cursor is exhausted and no SEED record is left (R331). -/
def retireLaunches (s : State) : State :=
  let ls := s.pkg.launches.filter fun l => l.seed.isSome || l.slots.any fun x => !x.exhausted
  { s with pkg := { s.pkg with launches := ls }, commanders := s.commanders.map (Commander.forget ls) }

/-- An index taken from a cursor: NEXT by its owner, LAST by a thief. -/
def takeIndex (number slot : Nat) (byOwner : Bool) (s : State) : Option (Launch × Nat × State) :=
  match s.pkg.launches.find? (·.number = number) with
  | none => none
  | some l =>
    match l.slots[slot]? with
    | none => none
    | some x =>
      let c := l.slots.length
      let n := if byOwner then x.next else x.last.toNat
      let x' : LaunchSlot := if byOwner then { x with next := x.next + c } else { x with last := x.last - c }
      let s := s.modPkg fun p =>
        { p with launches := p.launches.map fun m => if m.number = number then { m with slots := m.slots.set slot x' } else m }
      some (l, n, retireLaunches s)

/-! ### Entering an activation (R57, R313, R332) -/

/-- What an activation enters with. -/
structure Entering where
  epc : Word
  lat : Bool
  origin : BitVec 3
  tag : BitVec 9
  s1 : Word
  s2 : Word
  s3 : Word
  lidx : Option Word
  cb : Bool
  msg : Option MsgSlot
  holds : List PassedHold
  launch : Nat
  deriving DecidableEq, Repr

/-- s4 of a task record or launch index. -/
def taskTag (origin : BitVec 3) (lat : Bool) : BitVec 9 := BitVec.ofNat 9 (0x100 + 2 * origin.toNat + if lat then 1 else 0)

/-- A hold that an activation brings with it, installed in a slot as a grant; the home records the core that holds it now (R313,
R445). With every slot sticky for another cairn it is released as by REL. DESIGN CHOICE (log 27). A home that does not answer, or whose block of the
cairn holds an uncorrectable error, is told nothing and gives no HCNT: the hold keeps the one it had (R301, R427, log 26). -/
def installHold (h : PassedHold) (s : State) : State :=
  match cairnPhys s h.cairn with
  | none => s
  | some p =>
    match slotFor s.cid h.cairn s with
    | none => releasePassed h s
    | some (n, s) =>
      let takes := homeTakes s p
      let s := if h.exclusive && takes then setCairnMode p 2 (globalNumber s s.cid) 0 s else s
      modSlot s.cid n (fun x => { x with wait := h.wait || x.wait })
        (installGrant s.cid n h.exclusive (if takes then cairnHcnt s p else h.epoch) s)

/-- ACTIVATION ENTRY on the core whose turn it is. -/
def enter (e : Entering) (s : State) : State :=
  let c := s.core
  let c := (((c.setS 1 e.s1).setS 2 e.s2).setS 3 e.s3).setS 4 (e.tag.setWidth 64)
  let c : Core :=
    { c with
      pc := e.epc
      rpc := e.epc
      clsLat := e.lat
      clsOrigin := e.origin
      clsFill := false
      lidx := e.lidx.getD c.lidx
      phase := .run
      actNo := c.actNo + 1
      act := some { epc := e.epc, tag := e.tag, lat := e.lat, origin := e.origin, cb := e.cb, msg := e.msg, launch := e.launch } }
  let s := traceChange s.cid 1 (0x10 + e.origin.setWidth 8) s.pkg.cyc { s with core := c }
  e.holds.foldl (fun s h => installHold h s) s

/-- The entry of a deque record (R57, R59, R332). -/
def recordEntry (r : TaskRecord) (x : Carried) (origin : BitVec 3) : Entering :=
  { epc := r.epc, lat := r.lat, origin := origin, tag := taskTag origin r.lat, s1 := r.w1, s2 := r.w2, s3 := r.w3, lidx := x.lidx,
    cb := r.cb, msg := x.msg, holds := x.holds, launch := x.launch }

/-- The entry of a launch index (R332). -/
def indexEntry (l : Launch) (n : Nat) : Entering :=
  { epc := lrEpc l.record, lat := lrLat l.record, origin := 4, tag := taskTag 4 (lrLat l.record), s1 := lrArgs l.record,
    s2 := BitVec.ofNat 64 n, s3 := BitVec.ofNat 64 l.number, lidx := some (lidxOf l.record n), cb := false, msg := none, holds := [],
    launch := l.number }

/-! ### Work of a core -/

/-- A channel of a class that is eligible, searched round-robin (R334). -/
def eligibleChannel (s : State) (k : Nat) (lat : Bool) : Option Nat :=
  let from_ := match (if lat then (s.coreAt k).rrLat else (s.coreAt k).rrBulk) with
    | some c => c + 1
    | none => 0
  ((List.range 64).map fun j => (from_ + j) % 64).find? fun c => eligible s k c && chLat (chWord s k c) = lat

/-- The activation of a channel's head message: PEND falls, HEAD moves on, the slot stays occupied (R58, R255). -/
def enterChannel (ch : Nat) (lat : Bool) (s : State) : State :=
  let k := s.cid
  let w := chWord s k ch
  let j := chHead w
  let m := (bufferedAt s.core ch j).getD ⟨ch, j, 0, 0, none, false, none, false⟩
  let s := { s with core := { s.core with
    buffered := s.core.buffered.map fun b => if b.ch = ch && b.slot = j then { b with started := true, grant := none } else b
    rrLat := if lat then some ch else s.core.rrLat
    rrBulk := if lat then s.core.rrBulk else some ch } }
  let s := setChField s k ch 8 3 (chPend w - 1)
  let s := match s.core.buffered.find? fun b => b.ch = ch && !b.started with
    | some b => requestAcquire k ch b.slot (setChField s k ch 11 2 b.slot)
    | none => s
  enter
    { epc := chEpc s k ch, lat := lat, origin := 7, tag := BitVec.ofNat 9 ch,
      s1 := BitVec.ofNat 64 (2 ^ 63 + 2 ^ 60 + msgOffset ch j), s2 := BitVec.ofNat 64 m.sender, s3 := BitVec.ofNat 64 m.len,
      lidx := none, cb := false, msg := some ⟨k, ch, j⟩, holds := m.grant.toList, launch := 0 } s

/-- Step 1 or 3 of R334. -/
def chooseChannel (lat : Bool) (s : State) : Option State := (eligibleChannel s s.cid lat).map fun ch => enterChannel ch lat s

/-- Step 2 or 4 of R334: the bottommost record of the class, or else an index of a cursor of the class. -/
def chooseRecord (lat : Bool) (s : State) : Option State :=
  match bottommost s s.cid lat with
  | some p =>
    let x := dqCarried s.core p
    let r := dqRecord s s.cid p
    some (enter (recordEntry r x x.origin) (dqRemoveUp s.cid p s))
  | none =>
    match cursorFor s s.cid lat with
    | none => none
    | some (number, slot) => (takeIndex number slot true s).map fun t => enter (indexEntry t.1 t.2.1) t.2.2

/-- LRUN after an activation chosen at a step (R335). -/
def countRun (latStep : Bool) (s : State) : State :=
  { s with core := { s.core with lrun := if latStep then min 255 (s.core.lrun + 1) else 0 } }

/-! ### Stealing (R337, R338) -/

/-- The stealing domain of a core: 0 none, 1 cluster, 2 mesa, 3 package. -/
def domainOf (s : State) (k : Nat) : Nat :=
  match (launchesOf s k).map fun l => lrSteal l.record with
  | [] => (s.clusterAt (clusterOf k)).defsteal.toNat
  | d :: ds => ds.foldl min d

/-- Core v lies in a domain of core k. -/
def inDomain (d k v : Nat) : Bool :=
  match d with
  | 0 => false
  | 1 => clusterOf k = clusterOf v
  | 2 => mesaOf k = mesaOf v
  | _ => true

/-- A thief may take work from a victim. -/
def maySteal (s : State) (thief v : Nat) : Bool :=
  v ≠ thief && inDomain (domainOf s thief) thief v && inDomain (domainOf s v) v thief && !(s.coreAt v).vac

/-- The cores that a probe may visit, in the order of R338. Another cluster's members are probed from member 0 up, another mesa's clusters from
cluster 0 up. DESIGN CHOICE (log 43). -/
def probeOrder (s : State) (k : Nat) : List Nat :=
  let d := domainOf s k
  let own := (List.range 15).map fun j => clusterOf k * 16 + (memberOf k + 1 + j) % 16
  let mesa (m : Nat) (from_ n : Nat) : List Nat :=
    (List.range n).flatMap fun j => membersOf (m * 48 + (from_ + j) % 48)
  let near := if 2 ≤ d then mesa (mesaOf k) (clusterOf k % 48 + 1) 47 else []
  let far := if 3 ≤ d then (List.range 3).flatMap fun j => mesa ((mesaOf k + 1 + j) % 4) 0 48 else []
  if d = 0 then [] else own ++ near ++ far

/-- A victim's work that a thief takes, and the thief's entry with it. -/
def stealFrom (v : Nat) (s : State) : Option State :=
  if !maySteal s s.cid v then none
  else
    match topmostBulk s v s.cid with
    | some p =>
      let x := dqCarried (s.coreAt v) p
      let r := dqRecord s v p
      some (enter (recordEntry r x 3) (dqRemoveDown v p s))
    | none =>
      match cursorFor s v false with
      | none => none
      | some (number, slot) => (takeIndex number slot false s).map fun t => enter (indexEntry t.1 t.2.1) t.2.2

/-- A steal: the first success in the order of R338. -/
def steal (s : State) : Option State := (probeOrder s s.cid).findSome? fun v => stealFrom v s

/-! ### The choice at a boundary (R334, R335) -/

/-- The guard of R335 skips steps 1 and 2. -/
def guardSkips (s : State) : Bool :=
  s.core.sguard ≠ 0 && s.core.sguard.toNat ≤ s.core.lrun &&
    ((chooseChannel false s).isSome || (chooseRecord false s).isSome)

/-- Steps 1 to 5 of R334. -/
def chooseWork (s : State) : Option State :=
  let early := if guardSkips s then none else ((chooseChannel true s).orElse fun _ => chooseRecord true s).map (countRun true)
  early.orElse fun _ =>
    (((chooseChannel false s).orElse fun _ => chooseRecord false s).orElse fun _ => steal s).map (countRun false)

/-- The packet of a precise stop (R434). -/
def stopPacket (s : State) : Packet :=
  { core := s.cid, cause := 0x0A, flags := 0x01, insn := 0, pc := 0, rpc := 0, addr := 0, tag := 0, member := 0, det1 := 0x10,
    epc := 0, cyc := s.pkg.cyc, det2 := 0 }

/-- The core whose turn it is stops, at its boundary (R434). -/
def stopHere (s : State) : State :=
  let s := traceFlush s.cid (traceChange s.cid 0 0x03 s.pkg.cyc s)
  queuePacket s.cid (stopPacket s) { s with core := { s.core with phase := .stopped, stopReq := false } }

/-- A boundary core goes on: it stops, freezes on a refused entry, waits to be vacated, or chooses (R256, R334, R355, R434). A stop comes
before the report of a refused entry. DESIGN CHOICE (log 22). -/
def choose (s : State) : State :=
  if s.core.stopReq then stopHere s
  else
    match refusedEntry s.core with
    | some e => takeFault (refusalTrap e) s
    | none =>
      if s.core.vacReq then s
      else if s.core.vac then { s with core := { s.core with phase := .idle } }
      else
        match chooseWork s with
        | some t => t
        | none =>
          if s.core.phase = .idle then s
          else traceChange s.cid 0 0x01 s.pkg.cyc { s with core := { s.core with phase := .idle } }

/-- A follower of a broken caravan, resumed, commits its region and reaches a boundary, where its registers are full and its holds have
ended as at DONE (R56, R266, R313). -/
def leaveRegion : Act Unit := do
  commitPoint
  require (← ask (·.allFull)) (.stall 0)
  holdsRelease
  changeS fun s => reachBoundary (endHolds s)

/-- It waits until it can; a fault of its commit freezes it anew, and there is no activation to park or replay (log 20). -/
def leaveCaravanLate (s : State) : State :=
  match leaveRegion s with
  | .ok (_, t) => t
  | .error (.trap t) => freezeOn t (dropStale t.stale (loseLine t.lost s))
  | .error (.park a stale) => freezeOn { cause := 0x07, addr := a } (dropStale stale s)
  | .error (.ecc _ a _) => freezeOn { cause := 0x0C, addr := a } s
  | .error (.stall _) | .error (.commitFirst _) => s

/-- ACTIVATION_CHOICE (R334). A core whose killed activation left an EXROUTE unanswered waits for the answer (R384). The boundary of a
follower of a broken caravan, resumed, is reached here (R266). -/
def actActivationChoice (core : Nat) (s : State) : State :=
  onCore core (fun s =>
    if s.core.phase = .boundary && s.core.exroute.isNone then choose s
    else if s.core.phase = .wait .leave then leaveCaravanLate s
    else s) s
def execActivationChoice (core : Nat) (s : State) : Host.Outcome State Fault Refusal := .next (actActivationChoice core s)

/-- IDLE_WAKE (R336): an idle core is woken and chooses again. -/
def actIdleWake (core : Nat) (s : State) : State := onCore core (fun s => if s.core.phase = .idle then choose s else s) s
def execIdleWake (core : Nat) (s : State) : Host.Outcome State Fault Refusal := .next (actIdleWake core s)

/-- STEAL_PROBE (R338): the probe of a core that has found no work of its own. -/
def actStealProbe (core : Nat) (s : State) : State :=
  onCore core (fun s =>
    if (s.core.phase = .idle || s.core.phase = .boundary) && !s.core.vac && !s.core.vacReq && !s.core.stopReq &&
        (refusedEntry s.core).isNone && !guardSkips s &&
        (chooseChannel true s).isNone && (chooseRecord true s).isNone && (chooseChannel false s).isNone && (chooseRecord false s).isNone
    then ((steal s).map (countRun false)).getD s else s) s
def execStealProbe (core : Nat) (s : State) : Host.Outcome State Fault Refusal := .next (actStealProbe core s)

/-! ### Forced vacates (R352, R353) -/

/-- The request in progress that has chosen a core. -/
def vacRequest (s : State) (k : Nat) : Option Commander := s.commanders.toList.find? fun c => c.pvbusy && c.pvleft.contains k

/-- The distinct cores of a launch that stay, ascending. -/
def remaining (s : State) (l : Launch) : List Nat :=
  (List.range 3072).filter fun k => l.slots.any (·.core = k) && !(s.coreAt k).vacReq

/-- Slots of a launch that a core serves. -/
def servedSlots (l : Launch) (k : Nat) : Nat := (l.slots.filter (·.core = k)).length

/-- A core takes records of a vacated one: it is neither being vacated nor vacated. -/
def stays (s : State) (v : Nat) : Bool := !(s.coreAt v).vacReq && !(s.coreAt v).vac

/-- The cores that stay of the launch whose cores a request vacates (R355); none where no request of PVGO chose core k. -/
def launchTakers (s : State) (k : Nat) : List Nat :=
  match vacRequest s k with
  | some c => c.pvrest.filter (stays s)
  | none => []

/-- The cores that take the records of a vacated core, ascending: those of the launch that stay (R355), or the other members of its
cluster where it has been declared faulty (R411), round-robin as R355 has it: DEDUCED (log 42). -/
def takers (s : State) (k : Nat) : List Nat :=
  if (s.coreAt k).faulty then (membersOf (clusterOf k)).filter fun v => v ≠ k && stays s v else launchTakers s k

/-- Slots that a core serves of the launch whose cores a request vacates; none once that launch has retired. -/
def servedOf (s : State) (k v : Nat) : Nat :=
  match (vacRequest s k).bind fun c => s.pkg.launches.find? (·.number = c.pvof) with
  | some l => servedSlots l v
  | none => 0

/-- The core that takes a cluster-bound record of a vacated core (R355 step 4): none that an earlier request has vacated, and of several the
lowest. DESIGN CHOICE (log 43). -/
def boundHome (s : State) (k : Nat) : Nat :=
  match leastBy (servedOf s k) ((launchTakers s k).filter fun v => clusterOf v = clusterOf k) with
  | some v => v
  | none =>
    (leastBy (fun m => dqLen (s.coreAt m)) (((List.range 13).map (16 * clusterOf k + ·)).filter (stays s))).getD (supervisorOf k)

/-- Where record number n of a vacated core goes: round-robin over the remaining cores, or in its cluster with CB = 1. -/
def moveTo (s : State) (k n : Nat) (r : TaskRecord) : Nat :=
  if r.cb then boundHome s k
  else
    match takers s k with
    | v :: vs => (v :: vs).getD (n % (vs.length + 1)) v
    | [] => boundHome s k

/-- The deque that takes the continuation of core k (R353, R355 step 1): as the first record of step 4, both at the lowest core that takes
some. DESIGN CHOICE (log 43). -/
def continuationTo (s : State) (k : Nat) (r : TaskRecord) : Nat := if (s.coreAt k).vacReq then moveTo s k 0 r else homeCore s k

/-- FORCED VACATE of the core whose turn it is: abort, continuation, boundary. -/
def forcedVacate (s : State) : State :=
  let k := s.cid
  let followers := (caravan s k).filter (· ≠ k)
  let msg := match s.core.act with
    | some a => a.msg
    | none => none
  let s := abortRegion s
  let task := continuation s.core
  let (holds, s) := passHolds s
  let x : Carried := { Carried.plain 5 with holds := holds, msg := msg }
  let s := pushOrWait k (continuationTo s k task) task x s
  let s := reachBoundary { s with core := s.core.leaveCaravan }
  followers.foldl (fun s m => onCore m dropFollower s) s

/-- A wait that an abort lets end first: what it waits for another agent has been told of (R270, R384, R445). -/
def Wait.mustEnd (w : Wait) : Bool :=
  match w with
  | .crest .. | .expert | .parkEntry .. | .leave => true
  | .sleep .. | .mwait | .waitt .. | .acquire .. => false

/-- An abort of a core need not wait: it is not frozen, and no instruction that must retire first is under way (R146, R235, R270,
R352, R384). -/
def Core.abortable (c : Core) : Bool :=
  c.exroute.isNone && !c.mustRetire && c.closing.isNone &&
    match c.phase with
    | .run | .follower => true
    | .wait w => !w.mustEnd
    | _ => false

/-- A forced vacate of core k's activation need not wait: of a caravan, every member's abort must be possible (R266, R270). One restarted
after its deadline has been dealt with: it is vacated no more (R352). -/
def mayVacate (s : State) (k : Nat) : Bool :=
  (s.coreAt k).act.isSome && !(s.coreAt k).spared && (s.coreAt k).abortable && (caravan s k).all fun m => (s.coreAt m).abortable

/-- YIELD_DEADLINE (R352). -/
def actYieldDeadline (core : Nat) (s : State) : State :=
  onCore core (fun s => if s.core.ydl ≠ 0 && s.core.ydl.ule s.pkg.cyc && mayVacate s s.cid then forcedVacate s else s) s
def execYieldDeadline (core : Nat) (s : State) : Host.Outcome State Fault Refusal := .next (actYieldDeadline core s)

/-! ### Spatial pre-emption (R354, R355) -/

/-- A commander's registers: 0 to 3 the mesa command cores', 4 the host's. -/
def State.commander (s : State) (u : Nat) : Commander := s.commanders.toList.getD u Commander.reset
def State.modCommander (s : State) (u : Nat) (f : Commander → Commander) : State :=
  { s with commanders := s.commanders.setIfInBounds u (f (s.commander u)) }

/-- The core that takes a slot: the fewest slots among those of a list that hold fewer than 16 cursors. -/
def slotTaker (s : State) (l : Launch) (cores : List Nat) : Option Nat :=
  leastBy (servedSlots l) (cores.filter fun v => cursorCount s v < 16)

/-- Every slot of core k in a launch remapped to the cores that stay, or none where some slot has no taker. -/
def remapSlots (k : Nat) (number : Nat) (cores : List Nat) : List Nat → State → Option State
  | [], s => some s
  | j :: js, s =>
    match s.pkg.launches.find? (·.number = number) with
    | none => some s
    | some l =>
      match slotTaker s l cores with
      | none => none
      | some v =>
        remapSlots k number cores js (s.modPkg fun p =>
          { p with launches := p.launches.map fun m =>
              if m.number = number then { m with slots := m.slots.mapIdx fun i x => if i = j then { x with core := v } else x } else m })

/-- The slots of a launch that core k serves. -/
def slotsServedBy (s : State) (number k : Nat) : List Nat :=
  match s.pkg.launches.find? (·.number = number) with
  | none => []
  | some l => ((List.range l.slots.length).filter fun j => match l.slots[j]? with
      | some x => x.core = k
      | none => false)

/-- Every slot of core k, in every launch, remapped to the cores of each launch that stay, which serve the fewest slots of it (R355 step 3).
DESIGN CHOICE (log 43): that a slot of another launch stays within that launch. -/
def remapAll (k : Nat) (s : State) : Option State :=
  (launchesOf s k).foldl (fun acc l =>
    acc.bind fun s => remapSlots k l.number ((remaining s l).filter (· ≠ k)) (slotsServedBy s l.number k) s) (some s)

/-- The cores chosen for a request, in descending slot order (R354). -/
def chooseVacated (limit : Nat) (s : State) : List Nat → List Nat → List Nat
  | [], chosen => chosen
  | k :: ks, chosen =>
    if limit ≤ chosen.length then chosen
    else if chosen.contains k || memberOf k = 15 then chooseVacated limit s ks chosen
    else
      match remapAll k ((k :: chosen).foldl (fun s v => s.modCore v fun c => { c with vacReq := true }) s) with
      | some s' => chooseVacated limit s' ks (chosen ++ [k])
      | none => chooseVacated limit s ks chosen

/-- A vacate request, raised whatever the core's number (R355). -/
def requestVacate (k : Nat) (s : State) : State :=
  let s := s.modCore k fun c => { c with vacReq := true }
  if (s.coreAt (yieldTarget s k)).act.isSome then raiseYield k s
  else if (s.coreAt k).phase = .idle then s.modCore k fun c => { c with phase := .boundary } else s

/-- A request completes: BUSY, VAC, COUNT (R355 step 5). -/
def completeVacate (u : Nat) (s : State) : State :=
  s.modCommander u fun c => { c with pvbusy := false, pvvac := BitVec.ofNat 12 c.pvchosen, pvdone := c.pvdone + 1 }

/-- PVGO (R354): a write waits while BUSY is 1. -/
def actPvgo (unit : Nat) (v : Word) (s : State) : State :=
  let c := s.commander unit
  if c.pvbusy then s.defer (.pvgo unit v)
  else
    match s.pkg.launches.find? (·.number = c.pvlaunch.toNat) with
    | none => completeVacate unit (s.modCommander unit fun c => { c with pvchosen := 0, pvleft := [] })
    | some l =>
      let cores := (l.slots.map (·.core)).reverse
      let n := min c.pvcount.toNat (cores.eraseDups.length - 1)
      let chosen := if lrLat l.record || lrSeed l.record then [] else chooseVacated n s cores []
      let stay := (remaining s l).filter fun v => !chosen.contains v
      let s := s.modCommander unit fun c =>
        { c with pvbusy := true, pvleft := chosen, pvchosen := chosen.length, pvof := l.number, pvrest := stay }
      if chosen.isEmpty then completeVacate unit s else chosen.foldl (fun s k => requestVacate k s) s
def execPvgo (unit : Nat) (v : Word) (s : State) : Host.Outcome State Fault Refusal := .next (actPvgo unit v s)

/-- The records of core k's deque moved, bottommost first (R355 step 4). -/
def moveRecords (k : Nat) : Nat → Nat → State → State
  | 0, _, s => s
  | fuel + 1, n, s =>
    let c := s.coreAt k
    if dqLen c = 0 then s
    else
      let p := c.dqBot - 1
      let r := dqRecord s k p
      let x := dqCarried c p
      let dst := moveTo s k n r
      if dst = k then s
      else moveRecords k fuel (if r.cb then n else n + 1) (pushOrWait k dst r { x with origin := 5 } (dqRemoveUp k p s))

/-- A vacated core has completed its steps once every record that it gave up has found room, whether or not a launch has named it
meanwhile; a request all of whose cores have is complete (R355 step 5). -/
def settleVacate (core : Nat) (s : State) : State :=
  if (s.coreAt core).vacReq || stillMoving s core then s
  else
    (List.range 5).foldl (fun s u =>
      let c := s.commander u
      if c.pvbusy && c.pvleft.contains core then
        let s := s.modCommander u fun c => { c with pvleft := c.pvleft.filter (· ≠ core) }
        if (s.commander u).pvleft.isEmpty then completeVacate u s else s
      else s) s

/-- VACATE_HANDOFF (R355): a core to be vacated that has reached its boundary. It waits while one of its slots finds no core to take it: of a
core that R354 chooses each does, and R411 gives no case for a faulty one. DESIGN CHOICE (log 42). -/
def actVacateHandoff (core : Nat) (s : State) : State :=
  if !(s.coreAt core).vacReq || (s.coreAt core).phase ≠ .boundary then s
  else
    let t := writeBackAll core (fun _ => true) s
    let t := (List.range 8).foldl (fun s n => if ((s.coreAt core).slot n).valid then freeSlot core n s else s) t
    match remapAll core t with
    | none => s
    | some t =>
      let t := moveRecords core 256 0 t
      let t := traceChange core 0 0x04 t.pkg.cyc t
      settleVacate core (t.modCore core fun c =>
        { c with vacReq := false, vac := true, phase := .idle, fencedOff := c.fencedOff || c.faulty })
def execVacateHandoff (core : Nat) (s : State) : Host.Outcome State Fault Refusal := .next (actVacateHandoff core s)

end Sys2Proof.Machine
end

