-- ==== Sys2Proof/Machine/Supervise.lean ====
section
/-!
DEFINITION. Supervisor control (R73 to R79, R256, R266, R434, R436, R437): commands, fault packets sent, the writes to MCFGM, DSTAT
and CXCANCEL.
-/

namespace Sys2Proof.Machine

/-! ### Fault packets (R74, R76, R77) -/

/-- The 64 bytes of a packet. -/
def Packet.bytes (p : Packet) : List Byte :=
  leBytes 2 (p.core % 4096) ++ leBytes 1 p.cause.toNat ++ leBytes 1 p.flags.toNat ++ leBytes 4 p.insn.toNat ++ leBytes 8 p.pc.toNat ++
    leBytes 8 p.rpc.toNat ++ leBytes 8 p.addr.toNat ++ leBytes 2 p.tag.toNat ++ leBytes 2 p.member.toNat ++ leBytes 4 p.det1.toNat ++
    leBytes 8 p.epc.toNat ++ leBytes 8 p.cyc.toNat ++ leBytes 8 p.det2.toNat

/-- Where a packet goes, and the packet with its escalation mark; none for one that only interrupts the host. -/
def packetTo (k : Nat) (p : Packet) : Option (Nat × Packet) :=
  if !p.flags.getLsbD 0 then some (supervisorOf k, p)
  else if isCommand k then (if p.det1 = 0x10 && p.cause = 0x0A then some (k, p) else none)
  else if isSupervisor k then some (commandCore (mesaOf k), { p with flags := p.flags ||| 8 })
  else some (supervisorOf k, p)

/-- A channel takes a message at once: it is valid and has room. -/
def takesMessage (s : State) (k ch : Nat) : Bool := chV (chWord s k ch) && !channelFull s k ch

/-- FAULT_PACKET_SEND (R76). -/
def actFaultPacketSend (core : Nat) (s : State) : State :=
  match (s.coreAt core).packets with
  | [] => s
  | p :: rest =>
    let gone (s : State) : State := s.modCore core fun c => { c with packets := rest }
    match packetTo core p with
    | none => gone s
    | some (dst, p) => if takesMessage s dst 63 then gone (placeMessage dst 63 core p.bytes none s) else s
def execFaultPacketSend (core : Nat) (s : State) : Host.Outcome State Fault Refusal := .next (actFaultPacketSend core s)

/-! ### Commands (R78, R256, R266, R434) -/

/-- DSTAT.ERR set. -/
def refuseCommand (k : Nat) (code : BitVec 8) (s : State) : State := s.modCore k fun c => { c with dstatErr := code }

/-- The first refused entry of an outbox sent again, or gone. -/
def retryFirst : List OutEntry → List OutEntry
  | [] => []
  | e :: es => if e.refused then { e with refused := false } :: es else e :: retryFirst es
def dropFirst : List OutEntry → List OutEntry
  | [] => []
  | e :: es => if e.refused then es else e :: dropFirst es

/-- The refused entry that a freeze has reported is sent again (R256, R348); one that it has not stays to be reported. -/
def resend (c : Core) : Core := if c.frozenEntry then { c with outbox := retryFirst c.outbox, frozenEntry := false } else c

/-- What the instruction of the frozen core whose turn it is waits for is given up: an acquire is withdrawn at its home (R310), and the
holds of an activation that waits for a park entry come back into its slots. -/
def dropWait (s : State) : State :=
  let w := s.core.frozenWait
  let s := withdrawAcquire s
  let s := { s with core := { s.core with frozenWait := none } }
  match w with
  | some (.parkEntry _ holds _ _) => holds.foldl (fun s h => installHold h s) s
  | _ => s

/-- The sequencer goes on. -/
def Core.resumeRep (c : Core) : Core := { c with rep := if c.rep.state = 3 then { c.rep with state := 2 } else c.rep }

/-- A supervisor command takes effect once the instruction in issue has retired: the core goes on with it until then (R146, R235, R403). -/
def closeLater (x : Closing) (s : State) : State :=
  traceChange s.cid 1 0x21 s.pkg.cyc
    { s with core := { s.core.resumeRep with phase := s.core.ready, frozenWait := none, closing := some x } }

/-- A frozen acquire is withdrawn at its home, and its instruction asks anew (R78, R310). -/
def askAnew (s : State) : State :=
  match s.core.frozenWait with
  | some (.acquire ..) => dropWait s
  | _ => s

/-- The core whose turn it is goes on from a freeze: its activation, at PC, or its boundary (R78, R256). A follower of a broken caravan
commits its region and reaches one (R266). A wait that another agent has been told of goes on, but for an acquire (R270, R384); one for a
park entry ends if an entry has been freed meanwhile (R445). -/
def continueCore (s : State) : State :=
  if s.core.lone then
    if s.core.mustRetire then closeLater .leave s
    else
      let s := dropWait s
      { s with core := { s.core.resumeRep with phase := .wait .leave } }
  else if s.core.act.isNone && s.core.cvPos = 0 then
    let s := dropWait s
    { s with core := { s.core.resumeRep with phase := .boundary } }
  else
    let s := askAnew s
    let phase := match s.core.frozenWait with
      | some w => .wait w
      | none => s.core.ready
    let s := traceChange s.cid 1 0x21 s.pkg.cyc { s with core := { s.core.resumeRep with phase := phase, frozenWait := none } }
    takeFreedEntry (reportRefusal s)

/-- A supervisor command triggers the core's monitor, which ends an MWAIT (R324), whatever the command comes to. -/
def commandWakes (core : Nat) (s : State) : State :=
  { s with monitors := s.monitors.map fun m => if m.core = core then { m with hit := true } else m }

/-- RESUME (R78, R352). -/
def actResume (core : Nat) (s : State) : State :=
  let s := commandWakes core s
  if !(s.coreAt core).isFrozen then refuseCommand core 1 s
  else
    onCore core (fun s =>
      if s.core.phase = .stopped then { s with core := { s.core with phase := .boundary } }
      else
        let s := { s with core := resend s.core }
        let t := continueCore s
        if t.core.act.isSome && t.core.ydl ≠ 0 && t.core.ydl.ule t.pkg.cyc && mayVacate t t.cid then forcedVacate t else t) s
def execResume (core : Nat) (s : State) : Host.Outcome State Fault Refusal := .next (actResume core s)

/-- A member of a caravan that a package freeze has left formed is restarted or killed: the caravan is no more. Its frozen followers stand
as after a break (R266); one that has been resumed is aborted, as soon as it may be, and returned idle. DESIGN CHOICE (log 22). -/
def breakFor (s : State) : State :=
  if s.core.cvSize = 0 then s
  else (caravan s s.cid).foldl (fun s m => onCore m (fun s =>
    let c := s.core
    let alone := { s with core := c.leaveCaravan }
    if c.cvPos = 0 then alone
    else if c.isFrozen then { s with core := { c.leaveCaravan with frozenCause := 0x0D, orphan := true } }
    else
      let s := withdrawAcquire alone
      { s with core := { s.core with
        closing := some .kill
        orphan := true
        phase := match c.phase with
          | .wait w => if w.mustEnd then .wait w else .run
          | _ => .run } }) s) s

/-- RESTART performed: the region starts again at RPC, and a yield deadline that has passed vacates it no more (R78, R352). A core without an
activation returns idle (R266). -/
def restartNow (s : State) : State :=
  let late := s.core.ydl ≠ 0 && s.core.ydl.ule s.pkg.cyc
  let s := dropWait s
  if s.core.act.isNone && s.core.cvPos = 0 then dropFollower s
  else
    let s := abortRegion s
    { s with core := { s.core with spared := s.core.spared || late } }

/-- RESTART (R78, R266). The abort waits for the answer of an EXROUTE (R384), and for an instruction that has committed and must retire
before an abort may come (R146, R235, R403). -/
def actRestart (core : Nat) (s : State) : State :=
  let s := commandWakes core s
  if !(s.coreAt core).isFrozen then refuseCommand core 1 s
  else if (s.coreAt core).exroute.isSome then s.defer (.restart core)
  else
    onCore core (fun s =>
      if s.core.phase = .stopped then { s with core := { s.core with phase := .boundary } }
      else
        let s := breakFor s
        if s.core.mustRetire then closeLater .restart s
        else
          let s := restartNow s
          if s.core.phase = .boundary then s else traceChange s.cid 1 0x21 s.pkg.cyc s) s
def execRestart (core : Nat) (s : State) : Host.Outcome State Fault Refusal := .next (actRestart core s)

/-- The activation of the core whose turn it is killed (R78, R313): one that waits for a park entry with the holds that it passes
on. -/
def killActivation (s : State) : State :=
  let msg := match s.core.act with
    | some a => a.msg
    | none => none
  let s := match s.core.frozenWait with
    | some (.parkEntry _ holds _ _) => releaseAllPassed holds s
    | _ => s
  reachBoundary (freeMessage? msg (endHolds (abortRegion s)))

/-- The activation killed, once an instruction that has committed and must retire before an abort may come has (R146, R235, R403). -/
def killWhenDone (s : State) : State :=
  if s.core.mustRetire then closeLater .kill s else killActivation s

/-- What a core owes to a supervisor command, its instruction having retired. -/
def closeNow (x : Closing) (s : State) : State :=
  match x with
  | .restart => restartNow s
  | .kill => killActivation s
  | .leave => { s with core := { s.core with closing := none, phase := .wait .leave } }

/-- KILL (R78, R256, R266): of a freeze that has reported a refused entry, that entry is discarded, and the activation is killed only
where it issued it; a follower of a broken caravan is. The abort waits for the answer of an EXROUTE (R384). -/
def actKill (core : Nat) (s : State) : State :=
  let s := commandWakes core s
  if !(s.coreAt core).isFrozen then refuseCommand core 1 s
  else if (s.coreAt core).exroute.isSome then s.defer (.kill core)
  else
    onCore core (fun s =>
      if s.core.phase = .stopped then { s with core := { s.core with phase := .boundary } }
      else
        let s := breakFor s
        match (refusedEntry s.core).filter fun _ => s.core.frozenEntry with
        | some e =>
          let own := s.core.act.isSome && s.core.actNo = e.by_.actNo
          let s := { s with core := { s.core with outbox := dropFirst s.core.outbox, frozenEntry := false } }
          if own || s.core.lone then killWhenDone s else continueCore s
        | none => killWhenDone s) s
def execKill (core : Nat) (s : State) : Host.Outcome State Fault Refusal := .next (actKill core s)

/-- STOP (R434): an idle core stops at once. -/
def actStop (core : Nat) (s : State) : State :=
  let s := (commandWakes core s).modCore core fun c => { c with stopReq := true }
  if (s.coreAt core).phase = .idle then onCore core stopHere s else s
def execStop (core : Nat) (s : State) : Host.Outcome State Fault Refusal := .next (actStop core s)

/-- CANCEL (R434). -/
def actCancel (core : Nat) (s : State) : State := (commandWakes core s).modCore core fun c => { c with stopReq := false }
def execCancel (core : Nat) (s : State) : Host.Outcome State Fault Refusal := .next (actCancel core s)

/-- PRECISE_STOP (R434): the core with a stop request has reached its boundary. -/
def actPreciseStop (core : Nat) (s : State) : State :=
  let c := s.coreAt core
  if c.stopReq && (c.phase = .boundary || c.phase = .idle) then onCore core stopHere s else s
def execPreciseStop (core : Nat) (s : State) : Host.Outcome State Fault Refusal := .next (actPreciseStop core s)

/-- A store to CMD (R436). -/
def command (core : Nat) (v : Word) (s : State) : State :=
  match (v.extractLsb' 0 4).toNat with
  | 1 => actResume core s
  | 2 => actRestart core s
  | 3 => actKill core s
  | 4 => actStop core s
  | 5 => actCancel core s
  | _ => refuseCommand core 2 (commandWakes core s)

/-! ### Writes with behaviour of their own (R193, R205, R272, R436) -/

/-- mcfg.mode: TF0 to TF7 and ISAT; a tile whose format changes is cleared (R193, R205). -/
def Core.setMode (c : Core) (w : Word) : Core :=
  let tf (n : Nat) : BitVec 2 := w.extractLsb' (2 * n) 2
  { c with
    tf := Vector.ofFn fun n => tf n.val
    tiles := Vector.ofFn fun n =>
      if tf n.val = c.tf.toList.getD n.val 0 then c.tiles.toList.getD n.val (Vector.replicate 1024 0) else Vector.replicate 1024 0
    isat := w.getLsbD 16 }

/-- A mode word names a reserved format. -/
def badMode (w : Word) : Bool := (List.range 8).any fun n => w.extractLsb' (2 * n) 2 = 3#2

/-- MCFGM_WRITE (R436, R437). -/
def actMcfgmWrite (core : Nat) (v : Word) (s : State) : State :=
  if badMode v then refuseCommand core 3 s
  else if !(s.coreAt core).isFrozen then refuseCommand core 1 s
  else s.modCore core fun c => c.setMode v
def execMcfgmWrite (core : Nat) (v : Word) (s : State) : Host.Outcome State Fault Refusal := .next (actMcfgmWrite core v s)

/-- DSTAT_WRITE (R436): any write clears ERR. -/
def actDstatWrite (core : Nat) (_v : Word) (s : State) : State := s.modCore core fun c => { c with dstatErr := 0 }
def execDstatWrite (core : Nat) (v : Word) (s : State) : Host.Outcome State Fault Refusal := .next (actDstatWrite core v s)

/-- A unit block's contexts: a core of the unit, and the scope (R435). -/
def unitScope (target : Nat) : Option (Nat × Nat) :=
  if 0xC00 ≤ target && target < 0xC00 + 192 then some ((target - 0xC00) * 16, 0)
  else if 0xD00 ≤ target && target < 0xD04 then some ((target - 0xD00) * 768, 1)
  else if target = 0xE00 then some (0, 2)
  else none

/-- CXCANCEL (R272): of the context and unit that a window address names: target in bits 35:24, context in bits 8:5. -/
def actCxcancel (unit : Nat) (_v : Word) (s : State) : State :=
  match unitScope (unit / 2 ^ 24) with
  | some (core, scope) => cancelCrest core scope (unit / 32 % 16) s
  | none => s
def execCxcancel (unit : Nat) (v : Word) (s : State) : Host.Outcome State Fault Refusal := .next (actCxcancel unit v s)

end Sys2Proof.Machine
end

