-- ==== Sys2Proof/Machine/Mapping.lean ====
section
/-!
DEFINITION. Changing mappings (R288 to R293, R445): shoot-downs and the requeue port; walks and write-backs as steps of their own.
-/

namespace Sys2Proof.Machine

/-! ### The requeue port (R288, R445) -/

/-- The member and the park number that a store to RQGO names. -/
def rqCore (cluster : Nat) (v : Word) : Nat := cluster % 192 * 16 + (v.extractLsb' 0 4).toNat
def rqPark (v : Word) : Nat := (v.extractLsb' 8 4).toNat

/-- A park entry of core k freed; a core that waits for one takes it, a frozen one when it goes on. -/
def freeParkEntry (k no : Nat) (s : State) : State :=
  onCore k takeFreedEntry (s.modCore k fun c => { c with park := c.park.setIfInBounds no none })

/-- The park entry of a core. -/
def parkAt (s : State) (k no : Nat) : Option ParkEntry := (s.coreAt k).park.toList.getD no none

/-- RQGO_PUSH (R288). A write waits while the deque is full. -/
def actRqgoPush (cluster : Nat) (v : Word) (s : State) : State :=
  let k := rqCore cluster v
  if !dequeTakes s k then s.defer (.rqgo cluster v)
  else
    let r := (s.clusterAt (cluster % 192)).rqrec
    match parkAt s k (rqPark v) with
    | none => pushBottom k r (Carried.plain 5) s
    | some e => freeParkEntry k (rqPark v) (pushBottom k r { Carried.plain 5 with holds := e.holds, msg := e.msg } s)
def execRqgoPush (cluster : Nat) (v : Word) (s : State) : Host.Outcome State Fault Refusal := .next (actRqgoPush cluster v s)

/-- RQGO_DROP (R445). -/
def actRqgoDrop (cluster : Nat) (v : Word) (s : State) : State :=
  let k := rqCore cluster v
  match parkAt s k (rqPark v) with
  | none => s
  | some e => freeParkEntry k (rqPark v) (freeMessage? e.msg (releaseAllPassed e.holds s))
def execRqgoDrop (cluster : Nat) (v : Word) (s : State) : Host.Outcome State Fault Refusal := .next (actRqgoDrop cluster v s)

/-- A store to RQGO, pushing or dropping. -/
def storeRqgo (cluster : Nat) (v : Word) (s : State) : State :=
  if v.getLsbD 16 then actRqgoDrop cluster v s else actRqgoPush cluster v s

/-! ### Shoot-downs (R290, R291) -/

/-- A block of an object reaches into [off, off + len), or from off to the end where len is 0. -/
def inRange (a : Word) (id off len : Nat) : Bool :=
  !a.getLsbD 63 && objId a = id && off < objOff a + 64 && (len = 0 || objOff a < off + len)

/-- GEN of an entry advanced at its home (R290 step 1). -/
def advanceGen (id : Nat) (s : State) : State :=
  let p := entryAddr s id + 2
  physPutNat s p 2 ((physNat s p 2 + 1) % 2 ^ 16)

/-- Uncommitted posted atomics to an object marked for recheck (R151). -/
def markAtomics (id : Nat) (e : OutEntry) : OutEntry :=
  match e.cargo with
  | .amo _ _ ea _ _ => if !e.committed && objId ea = id && !ea.getLsbD 63 then { e with recheck := true } else e
  | _ => e

/-- Step 3 of R290 on one core. -/
def shootCore (id off len k : Nat) (s : State) : State :=
  let s := purgeLines k (fun l => inRange l.addr id off len) s
  s.modCore k fun c =>
    { c with
      lines := c.lines.map fun l => if l.unc && inRange l.addr id off len then { l with recheck := true } else l
      ilines := c.ilines.filter fun l => !inRange l.addr id off len
      outbox := c.outbox.map (markAtomics id) }

/-- The lines of a shot range that step 3 has kept dirty: their home does not answer (R427). -/
def keptLines (id off len : Nat) (s : State) : List (Nat × Word) :=
  s.listed.flatMap fun k => ((s.coreAt k).lines.filter fun l => l.isCommitted && inRange l.addr id off len).map fun l => (k, l.addr)

/-- SDGO (R290 steps 1 to 3). A write waits while BUSY is 1 (R289). -/
def actSdgo (unit : Nat) (v : Word) (s : State) : State :=
  let c := s.commander unit
  if c.sdbusy then s.defer (.sdgo unit v)
  else
    let id := c.sdobj.toNat
    let off := c.sdoff.toNat
    let len := c.sdlen.toNat
    let s := advanceGen id (s.modCommander unit fun c => { c with sdbusy := true })
    let s := { s with clusters := s.clusters.map fun (g : Nat × Cluster) => (g.1, { g.2 with tc := g.2.tc.filter fun t => t.id ≠ c.sdobj }) }
    let s := s.listed.foldl (fun s k => shootCore id off len k s) s
    s.modCommander unit fun c => { c with shot := ⟨id, off, len, keptLines id off len s⟩ }
def execSdgo (unit : Nat) (v : Word) (s : State) : Host.Outcome State Fault Refusal := .next (actSdgo unit v s)

/-- What is under way by a translation of an object: posted atomics, which carry no object any more, and what goes to a cairn's home. -/
def Transit.translates (id : Nat) (t : Transit) : Bool :=
  match t with
  | .amo .. => true
  | .acquire cairn _ _ _ _ | .surrender cairn _ _ _ _ _ | .release cairn _ _ _ _ | .withdraw cairn _ _ => objId cairn = id
  | _ => false

/-- A line that a shoot-down has kept is at home, or goes home now: its home answers, and none of its bytes is uncommitted. -/
def keptDone (s : State) (x : Nat × Word) : Bool :=
  match findLine (s.coreAt x.1) x.2 with
  | some l => !l.isDirty || (l.isCommitted && !keepsDirty s l)
  | none => true

/-- Every access translated under an older generation of an object has been performed (R151, R291). -/
def accessesDone (s : State) (x : Shot) : Bool :=
  x.kept.all (keptDone s) && (s.listed.all fun k => (s.coreAt k).outbox.all fun e => match e.cargo with
    | .amo _ _ ea _ _ => !(e.committed && objId ea = x.id && !ea.getLsbD 63)
    | _ => true) &&
  s.net.all fun t => !t.translates x.id

/-- SHOOTDOWN_COMPLETE (R291), once the lines that step 3 has kept have gone home too: none of them stays in L1, be it clean by now. -/
def actShootdownComplete (unit : Nat) (s : State) : State :=
  let c := s.commander unit
  if c.sdbusy && accessesDone s c.shot then
    let s := c.shot.kept.foldl (fun s x => purgeLines x.1 (fun l => l.addr = x.2) s) s
    s.modCommander unit fun c => { c with sdbusy := false, sdcount := c.sdcount + 1 }
  else s
def execShootdownComplete (unit : Nat) (s : State) : Host.Outcome State Fault Refusal := .next (actShootdownComplete unit s)

/-! ### A walk and a write-back as steps -/

/-- TRANSLATION_WALK (R285): a walk for an address of core's cluster fills its translation cache, unless it fails. -/
def actTranslationWalk (core : Nat) (addr : Word) (s : State) : State :=
  if addr.getLsbD 63 then s
  else
    match walk s (objId addr) (objOff addr) 1 .read with
    | .ok x => s.modCluster (clusterOf core) fun c => { c with tc := tcFill c.tc (x.entry (objId addr)) s.nfree }
    | .error _ => s
def execTranslationWalk (core : Nat) (addr : Word) (s : State) : Host.Outcome State Fault Refusal := .next (actTranslationWalk core addr s)

/-- WRITE_BACK_MERGE (R63): a committed dirty line merges at home and stays clean. -/
def actWriteBackMerge (core : Nat) (line : Word) (s : State) : State := writeBackAll core (fun l => l.addr = blockAddr line) s
def execWriteBackMerge (core : Nat) (line : Word) (s : State) : Host.Outcome State Fault Refusal := .next (actWriteBackMerge core line s)

end Sys2Proof.Machine
end

