-- ==== Sys2Proof/Machine/Launch.lean ====
section
/-!
DEFINITION. Launches (R326 to R333, R438, R439): the mailbox, admission, the stamp, reports, dispatch and launch breakpoints.
-/

namespace Sys2Proof.Machine

/-! ### The mailbox -/

/-- A launch queue by number. -/
def launchQueue (s : State) (q : Nat) : LaunchQueue := s.pkg.launchQueues.toList.getD q ⟨[], 0, 0, false, 0, false, false⟩

/-- A launch queue changed. -/
def modLaunchQueue (q : Nat) (f : LaunchQueue → LaunchQueue) (s : State) : State :=
  s.modPkg fun p => { p with launchQueues := p.launchQueues.setIfInBounds q (f (launchQueue s q)) }

/-- The body of a report (R330). -/
def reportBody (kind seen q : Nat) (r : List Byte) : List Byte :=
  leBytes 4 kind ++ leBytes 4 (lrStamp r) ++ leBytes 4 seen ++ leBytes 1 q ++ leBytes 3 0 ++ leBytes 8 (recWord r 0) ++
    leBytes 8 (recWord r 32) ++ List.replicate 32 0

/-- A launch problem reported (R330). -/
def report (kind seen q : Nat) (r : List Byte) (s : State) : State := postService 2 (reportBody kind seen q r) s

/-- A report on a queue still waits for the host queue, and the queue waits with it (R330). -/
def reportWaits (s : State) (q : Nat) : Bool :=
  s.pkg.services.any fun m => m.1 = 2 && m.2.getD 12 0 = BitVec.ofNat 8 q

/-- A write to the doorbell of queue q (R328, R417): one of another size than 64 bytes is discarded. -/
def enqueueLaunch (q : Nat) (record : List Byte) (s : State) : State :=
  if !s.pkg.bootReady || 16 ≤ q || record.length ≠ 64 then s
  else if 16 ≤ (launchQueue s q).records.length then report 3 0 q record s
  else modLaunchQueue q (fun x => { x with records := x.records ++ [record] }) s

/-- LAUNCH_POST (R328, R417), in its turn among the host's writes. -/
def actLaunchPost (q : Nat) (record : List Byte) (s : State) : State := hostInTurn (.launch q record) (enqueueLaunch q record) s
def execLaunchPost (q : Nat) (record : List Byte) (s : State) : Host.Outcome State Fault Refusal := .next (actLaunchPost q record s)

/-- The head record leaves its queue. -/
def popLaunch (q : Nat) (s : State) : State := modLaunchQueue q (fun x => ⟨x.records.tail, 0, 0, false, 0, false, false⟩) s

/-! ### Dispatch (R328, R331, R333) -/

/-- The lowest free launch number. -/
def freeLaunch (s : State) : Option Nat := (List.range 64).find? fun n => !s.pkg.launches.any (·.number = n)

/-- A launch can be dispatched: the table has room, and every core of a FLAT launch can take its cursors. A SEED record, which takes none,
waits for no cursor (R333). DESIGN CHOICE (log 42). -/
def canDispatch (s : State) (r : List Byte) : Bool :=
  (freeLaunch s).isSome && (lrSeed r || (coreSet s r).all fun k => cursorCount s k < 16)

/-- The record of a SEED launch (R331, R332). -/
def seedRecord (r : List Byte) (number : Nat) : TaskRecord :=
  ⟨lrEpc r ||| (if lrLat r then 1 else 0), lrArgs r, 0, BitVec.ofNat 64 number⟩

/-- Slot j of C over N indices: the cursor at its start (R331). With j ≥ N it starts exhausted, one place below its NEXT. -/
def startSlot (core j c n : Nat) : LaunchSlot := ⟨core, j, if j < n then ((j + (n - 1 - j) / c * c : Nat) : Int) else (j : Int) - c⟩

/-- The cores named by a launch serve again, and idle ones choose (R336, R355). -/
def nameCores (cores : List Nat) (s : State) : State :=
  cores.foldl (fun s k => if (s.coreAt k).vac then s.modCore k fun c => { c with vac := false } else s) s

/-- The SEED records that wait for room are pushed (R339). -/
def pushSeeds (s : State) : State :=
  s.pkg.launches.foldl (fun s l => match l.seed with
    | some (k, r) =>
      if !dequeTakes s k then s
      else
        let s := pushBottom k r { Carried.plain 4 with launch := l.number } s
        s.modPkg fun p => { p with launches := p.launches.map fun m => if m.number = l.number then { m with seed := none } else m }
    | none => s) s

/-- LAUNCH DISPATCH. A SEED launch names its first core only. DESIGN CHOICE (log 43). -/
def dispatch (r : List Byte) (s : State) : State :=
  match freeLaunch s with
  | none => s
  | some number =>
    let cores := coreSet s r
    let s := nameCores (if lrSeed r then cores.take 1 else cores) s
    let l : Launch :=
      if lrSeed r then ⟨number, r, [], cores.length, (cores.head?).map (·, seedRecord r number)⟩
      else
        let n := lrDimX r * lrDimY r * lrDimZ r
        ⟨number, r, cores.mapIdx fun j k => startSlot k j cores.length n, cores.length, none⟩
    retireLaunches (pushSeeds (s.modPkg fun p => { p with launches := p.launches ++ [l] }))

/-! ### Admission (R329, R439) -/

/-- Check 1 of R329. A SEED record, which enumerates no index, is taken to use its dimensions as a FLAT one does. DESIGN CHOICE (log 42). -/
def badRecord (s : State) (r : List Byte) : Bool :=
  (lrEpc r).getLsbD 0 || (lrEpc r).getLsbD 63 || lrNdim r = 0 || lrDimX r = 0 || lrDimY r = 0 || lrDimZ r = 0 || lrCount r = 0 ||
    3072 < lrFirst r + lrCount r || (coreSet s r).isEmpty || (lrArgs r).getLsbD 63 || objId (lrArgs r) = 0

/-- The stamp word of the argument block, read at its home block by block; none where it cannot be read (R282, R329). -/
def readStamp (s : State) (r : List Byte) : Option Nat :=
  let parts := (pieces (lrArgs r) 4).map fun x => match walk s (objId x.1) (objOff x.1) x.2 .read with
    | .ok y => if s.ecc.contains (blockOf y.phys) || !reachable s y.phys then none else some (physBytes s y.phys x.2)
    | .error _ => none
  if parts.all (·.isSome) then some (leValue (parts.flatMap (·.getD []))) else none

/-- The breakpoint that a record hits. -/
def launchBreak (s : State) (q : Nat) (r : List Byte) : Option Nat :=
  (List.range 4).find? fun n =>
    let b := s.pkg.lbreaks.toList.getD n ⟨0, 0⟩
    b.lbp.getLsbD 0 && (!b.lbq.getLsbD 16 || (b.lbp &&& ~~~ 1#64) = lrEpc r) && (!b.lbq.getLsbD 17 || b.lbq.getLsbD q)

/-- The head record, its checks passed, is dispatched, or waits in its queue until it can be (R328, R333). -/
def dispatchHead (q : Nat) (r : List Byte) (wait : LaunchQueue → LaunchQueue) (s : State) : State :=
  if canDispatch s r then dispatch r (popLaunch q s) else modLaunchQueue q wait s

/-- A record that has passed its checks is held at a breakpoint, dispatched, or waits, and looks again at the breakpoints while it does
(R328, R333, R439). -/
def admitRecord (q : Nat) (r : List Byte) (s : State) : State :=
  match launchBreak s q r with
  | some n => report 5 n q r (modLaunchQueue q (fun x => { x with held := true }) s)
  | none => dispatchHead q r (fun x => { x with passed := true }) s

/-- One read of the stamp of the head record (R329 steps 2 and 3). -/
def checkStamp (q : Nat) (r : List Byte) (s : State) : State :=
  match readStamp s r with
  | none => report 4 0 q r (popLaunch q s)
  | some w =>
    if w = lrStamp r then admitRecord q r s
    else
      let n := (launchQueue s q).reads + 1
      if 16 ≤ n then report 1 w q r (popLaunch q s)
      else modLaunchQueue q (fun x => { x with reads := n, seen := BitVec.ofNat 32 w, first := if x.reads = 0 then s.pkg.cyc else x.first }) s

/-- LAUNCH_ADMISSION (R329). The checks come before the wait for room in the launch table and among the cursors, and are not made again
while the record waits. DESIGN CHOICE (log 42). -/
def actLaunchAdmission (q : Nat) (s : State) : State :=
  let s := retireLaunches (pushSeeds s)
  match (launchQueue s q).records with
  | [] => s
  | r :: _ =>
    if reportWaits s q || (launchQueue s q).held then s
    else if (launchQueue s q).freed then (if canDispatch s r then dispatch r (popLaunch q s) else s)
    else if (launchQueue s q).passed then admitRecord q r s
    else if (launchQueue s q).reads ≠ 0 then s
    else if badRecord s r then report 2 0 q r (popLaunch q s)
    else checkStamp q r s
def execLaunchAdmission (q : Nat) (s : State) : Host.Outcome State Fault Refusal := .next (actLaunchAdmission q s)

/-- The next read of the stamp of a queue's head is due: 112 cycles after the one before it (R329). -/
def stampDue (s : State) (q : Nat) : Bool :=
  let x := launchQueue s q
  x.reads ≠ 0 && !x.held && !x.freed && !x.passed && 112 * x.reads ≤ (s.pkg.cyc - x.first).toNat

/-- STAMP_RECHECK (R329). -/
def actStampRecheck (q : Nat) (s : State) : State :=
  match (launchQueue s q).records with
  | [] => s
  | r :: _ => if reportWaits s q || !stampDue s q then s else checkStamp q r s
def execStampRecheck (q : Nat) (s : State) : Host.Outcome State Fault Refusal := .next (actStampRecheck q s)

/-- LBGO with DROP 0 (R439): the held record is dispatched, without another look at the breakpoints, as soon as it can be (R328). -/
def actLbgoDispatch (v : Word) (s : State) : State :=
  let q := (v.extractLsb' 0 4).toNat
  match (launchQueue s q).records with
  | [] => s
  | r :: _ => if (launchQueue s q).held then dispatchHead q r (fun x => { x with held := false, freed := true }) s else s
def execLbgoDispatch (v : Word) (s : State) : Host.Outcome State Fault Refusal := .next (actLbgoDispatch v s)

/-- LBGO with DROP 1 (R439): the held record is discarded. -/
def actLbgoDrop (v : Word) (s : State) : State :=
  let q := (v.extractLsb' 0 4).toNat
  if (launchQueue s q).held then popLaunch q s else s
def execLbgoDrop (v : Word) (s : State) : Host.Outcome State Fault Refusal := .next (actLbgoDrop v s)

/-- A store to LBGO. -/
def storeLbgo (v : Word) (s : State) : State := if v.getLsbD 8 then actLbgoDrop v s else actLbgoDispatch v s

end Sys2Proof.Machine
end

