-- ==== Sys2Proof/Machine/Erg.lean ====
section
/-!
DEFINITION. Erg (R424 to R427): remote messages, retries, flits and their acknowledgement, ports and unreachable packages.
-/

namespace Sys2Proof.Machine

/-- The fields of EMDST (R426). -/
def emPkg (w : Word) : Nat := (w.extractLsb' 0 10).toNat
def emCore (w : Word) : Nat := (w.extractLsb' 10 12).toNat
def emCh (w : Word) : Nat := (w.extractLsb' 22 6).toNat
def emLen (w : Word) : Nat := (w.extractLsb' 28 7).toNat

/-- The message of two is for the same destination core and channel. -/
def RemoteMsg.sameTo (a b : RemoteMsg) : Bool := a.pkg = b.pkg && a.dst = b.dst && a.ch = b.ch

/-- The first message of the send buffer that may be sent: not sent, its time come, and none before it for its channel (R426). -/
def nextRemote (now : Word) : List RemoteMsg → List RemoteMsg → Option RemoteMsg
  | [], _ => none
  | m :: ms, before =>
    if !m.sent && m.due.ule now && !before.any (·.sameTo m) then some m else nextRemote now ms (before ++ [m])

/-- The first entry of the buffer that equals a message replaced. -/
def replaceFirst (m m' : RemoteMsg) : List RemoteMsg → List RemoteMsg
  | [] => []
  | x :: xs => if x = m then m' :: xs else x :: replaceFirst m m' xs

/-- A remote message dropped and counted in EMSTAT (R426). -/
def dropRemote (k : Nat) (m : RemoteMsg) (s : State) : State :=
  s.modCore k fun c => { c with emBuf := c.emBuf.erase m, emstat := if c.emstat = BitVec.allOnes 16 then c.emstat else c.emstat + 1 }

/-- The ports that are up and not fenced (R411, R412). -/
def enabledPorts (p : Package) : BitVec 16 := p.ergPorts &&& ~~~ p.ergFenced

/-- The port over which a flit goes: the lowest that is enabled (the choice of plane is the hardware's). With none enabled it goes over
port 0, and arrives, until its package is declared unreachable; R427 speaks only of ports that remain up. DESIGN CHOICE (log 32). -/
def livePort (s : State) : Nat := ((List.range 16).find? fun p => (enabledPorts s.pkg).getLsbD p).getD 0

/-- Messages of a core's send buffer that may go leave as flits (R426, R427). -/
def sendRemote (k : Nat) (s : State) : State :=
  match nextRemote s.pkg.cyc (s.coreAt k).emBuf [] with
  | none => s
  | some m =>
    if m.pkg ≠ s.pkg.pkgid.toNat && (assocGet s.pkg.unreachable m.pkg).isSome then
      dropRemote k m (countDrop s (m.pkg * 2 ^ 46))
    else
      let m' := { m with sent := true }
      let s := s.modCore k fun c => { c with emBuf := replaceFirst m m' c.emBuf }
      let s := s.modPkg fun p => { p with replay := p.replay ++ [(livePort s, k, m')] }
      { s with net := s.net ++ [.flit k m'] }

/-- A message placed in the send buffer of core k. -/
def placeRemote (k : Nat) (m : RemoteMsg) (s : State) : State :=
  sendRemote k (s.modCore k fun c => { c with emBuf := c.emBuf ++ [m] })

/-- ERG_RETRY (R426): a message answered with a retry is sent again. -/
def actErgRetry (core : Nat) (s : State) : State := sendRemote core s
def execErgRetry (core : Nat) (s : State) : Host.Outcome State Fault Refusal := .next (actErgRetry core s)

/-- A flit answered: 0 placed, 1 retry after 1 µs, which is 850 cycles (R409), 2 refused. -/
def answerRemote (src : Nat) (m : RemoteMsg) (answer : Nat) (s : State) : State :=
  match answer with
  | 0 => s.modCore src fun c => { c with emBuf := c.emBuf.erase m }
  | 1 => s.modCore src fun c => { c with emBuf := replaceFirst m { m with sent := false, due := s.pkg.cyc + 850 } c.emBuf }
  | _ => dropRemote src m s

/-- The answer of a target package that is not this one, which the manual leaves to that package. -/
def remoteAnswer (s : State) : Nat := Config.pick s.nfree 3 % 3

/-- ERG_FLIT_ARRIVAL (R426, R427): the n-th packet under way is a flit; a duplicate is ignored. -/
def actErgFlitArrival (n : Nat) (s : State) : State :=
  match s.net[n]? with
  | some (.flit src m) =>
    let s := { s with net := s.net.eraseIdx n }
    if !(s.coreAt src).emBuf.contains m then s
    else if m.pkg = s.pkg.pkgid.toNat then
      if !chV (chWord s m.dst m.ch) then answerRemote src m 2 s
      else if channelFull s m.dst m.ch then answerRemote src m 1 s
      else answerRemote src m 0 (placeMessage m.dst m.ch (globalNumber s src) m.bytes none s)
    else answerRemote src m (remoteAnswer s) { s with nfree := s.nfree + 1 }
  | _ => s
def execErgFlitArrival (n : Nat) (s : State) : Host.Outcome State Fault Refusal := .next (actErgFlitArrival n s)

/-- ERG_ACK (R427): the n-th flit of the replay buffers is acknowledged. -/
def actErgAck (n : Nat) (s : State) : State := s.modPkg fun p => { p with replay := p.replay.eraseIdx n }
def execErgAck (n : Nat) (s : State) : Host.Outcome State Fault Refusal := .next (actErgAck n s)

/-- ERG_PORT_DOWN (R427): the port's unacknowledged flits go over a port that stays up. -/
def actErgPortDown (port : Nat) (s : State) : State :=
  let s := s.modPkg fun p => { p with ergPorts := p.ergPorts &&& ~~~ (1#16 <<< port) }
  let q := livePort s
  s.modPkg fun p => { p with replay := p.replay.map fun r => if r.1 = port then (q, r.2) else r }
def execErgPortDown (port : Nat) (s : State) : Host.Outcome State Fault Refusal := .next (actErgPortDown port s)

/-- ERG_UNREACHABLE (R420, R427): the package's number is noted; remote messages to it are dropped, and the first access dropped
reports it. -/
def actErgUnreachable (pkg : Nat) (s : State) : State :=
  if pkg = s.pkg.pkgid.toNat || (assocGet s.pkg.unreachable pkg).isSome then s
  else
    let s := s.modPkg fun p =>
      { p with unreachable := assocSet p.unreachable pkg ⟨0, p.cyc⟩, replay := p.replay.filter fun r => r.2.2.pkg ≠ pkg }
    s.listed.foldl (fun s k =>
      ((s.coreAt k).emBuf.filter (·.pkg = pkg)).foldl (fun s m => dropRemote k m (countDrop s (pkg * 2 ^ 46))) s) s
def execErgUnreachable (pkg : Nat) (s : State) : Host.Outcome State Fault Refusal := .next (actErgUnreachable pkg s)

/-- An acknowledgement of a package that was unreachable arrives: accesses to it go on (R427). -/
def packageAnswers (pkg : Nat) (s : State) : State := s.modPkg fun p => { p with unreachable := assocDrop p.unreachable pkg }

/-- A message from a core of another package is placed in its channel, with s2 as R426 gives; a refusal or a retry is an answer to
that package, which keeps the message. -/
def messageInbound (pkg sender dst ch : Nat) (bytes : List Byte) (s : State) : State :=
  if !chV (chWord s dst ch) || channelFull s dst ch || bytes.length = 0 || 64 < bytes.length then s
  else placeMessage dst ch (pkg * 4096 + sender) bytes none s

/-- ERG_LINK_TRAINING (R424): the switch gives the package its number, one of 576; a trained port is up. -/
def actErgLinkTraining (port : Nat) (s : State) : State :=
  let n := Config.pick s.nfree 576 % 576
  { s with nfree := s.nfree + 1 }.modPkg fun p => { p with pkgid := BitVec.ofNat 10 n, ergPorts := p.ergPorts ||| (1#16 <<< port) }
def execErgLinkTraining (port : Nat) (s : State) : Host.Outcome State Fault Refusal := .next (actErgLinkTraining port s)

end Sys2Proof.Machine
end

