-- ==== Sys2Proof/Machine/Power.lean ====
section
/-!
DEFINITION. Package services (R401, R408 to R413): the skip flag, the governor, telemetry, corrected errors, the capability list,
reset, boot and attestation.
-/

namespace Sys2Proof.Machine

/-- A write to SKIPF (R401). -/
def writeSkipf (v : Word) (s : State) : State := setSkip (v.extractLsb' 0 32) (v.getLsbD 32) s

/-- SKIPF_WRITE (R401): the host's write, in its turn. -/
def actSkipfWrite (v : Word) (s : State) : State := hostInTurn (.skipf v) (writeSkipf v) s
def execSkipfWrite (v : Word) (s : State) : Host.Outcome State Fault Refusal := .next (actSkipfWrite v s)

/-- The band of the next period in milliwatts (R409): W/ms are milliwatts in a period of 1 µs. -/
def bandLow (p : Package) : Nat := p.pgPower - p.pgDn.toNat
def bandHigh (p : Package) : Nat := p.pgPower + p.pgUp.toNat

/-- The governor's mode for a period (R409): TRACK, FILL, BALLAST, PACE; `fill` says that filler work can close the gap. -/
def governorMode (p : Package) (demand : Nat) (fill : Bool) : BitVec 2 :=
  if !p.pgEn then 0
  else if bandHigh p < demand * 1000 then 3
  else if demand * 1000 < bandLow p then (if fill then 1 else 2)
  else 0

/-- The power of a period in milliwatts, by its mode (R409): demand, somewhere in the band, the band's bottom as far as the ballast
reaches, the band's top. `fill` is what the filler work adds to the bottom of the band, a measured value. -/
def governedPower (p : Package) (mode : BitVec 2) (demand fill : Nat) : Nat :=
  match mode.toNat with
  | 0 => demand * 1000
  | 1 => bandLow p + fill % (bandHigh p - bandLow p + 1)
  | 2 => min (bandLow p) ((demand + p.pgBal.toNat) * 1000)
  | _ => bandHigh p

/-- There is filler work: a core runs an activation with CLASS.FILL = 1 (R55, R409). -/
def fillerWork (s : State) : Bool := s.listed.any fun k =>
  let c := s.coreAt k
  c.act.isSome && c.clsFill && !c.isFrozen

/-- GOVERNOR_PERIOD (R408, R409): a period of 850 cycles has passed. Demand, and whether the filler work there is can close the gap, are
measured values. The energy grows by what the microsecond that ends has taken at its power. DEDUCED (log 25). -/
def actGovernorPeriod (s : State) : State :=
  if (s.pkg.cyc - s.pkg.pgFrom).toNat < 850 then s
  else
    let (n, s) := s.draw
    let d := Config.demand n
    let mode := governorMode s.pkg d.toNat (fillerWork s && decide (Config.pick n 2 % 2 = 1))
    { s with
      governed := true
      pkg := { s.pkg with
        pgMode := mode
        pgDemand := d
        pgPower := governedPower s.pkg mode d.toNat (Config.power n).toNat
        pgEne := s.pkg.pgEne + s.pkg.pgPower
        pgFrom := s.pkg.pgFrom + 850 } }
def execGovernorPeriod (s : State) : Host.Outcome State Fault Refusal := .next (actGovernorPeriod s)

/-- A write to ESNAP (R410): energy and time latched; the time reads 0 until the port has locked. -/
def snapEnergy (s : State) : State :=
  let (n, s) := s.draw
  s.modPkg fun p =>
    { p with
      esnapE := BitVec.ofNat 64 (p.pgEne / 10 ^ 6)
      esnapT := if p.portLocked then Config.timeSeconds n else 0
      esnapN := if p.portLocked then Config.timeNanos n else 0 }

/-- ESNAP (R410), in its turn among the host's writes. -/
def actEsnap (v : Word) (s : State) : State := hostInTurn (.esnap v) snapEnergy s
def execEsnap (v : Word) (s : State) : Host.Outcome State Fault Refusal := .next (actEsnap v s)

/-- MANAGEMENT_PORT_LOCK (R410). -/
def actManagementPortLock (s : State) : State := s.modPkg fun p => { p with portLocked := true }
def execManagementPortLock (s : State) : Host.Outcome State Fault Refusal := .next (actManagementPortLock s)

/-- PACKAGE_RESET (R413): everything as at reset; free values drawn before are not drawn again, and the firmware image is what it was. -/
def actPackageReset (s : State) : State :=
  { State.reset with nfree := s.nfree, pkg := { Package.reset with bootImage := s.pkg.bootImage } }
def execPackageReset (s : State) : Host.Outcome State Fault Refusal := .next (actPackageReset s)

/-- A firmware image that does not verify is not run: the failure stands in BOOTST, and vector 2 is raised (R413, R416). -/
def bootFails (s : State) : State :=
  raiseVector 2 (s.modPkg fun p => { p with bootStage := 1, bootErr := p.bootImage.setWidth 8 })

/-- The object table that boot firmware places: 512 MiB in this package's DRAM, two whole channels (R276). -/
def bootOt (s : State) : Nat := physAddr s.pkg.pkgid.toNat 0 (2 * (Config.bootOtbase % 1536)) 0

/-- The expert table that boot firmware places: 64 MiB in a channel of this package's DRAM that the object table leaves (R370). -/
def bootXt (s : State) : Nat :=
  let n := Config.bootXtbase % (4 * 3070)
  physAddr s.pkg.pkgid.toNat 0 (if n / 4 < 2 * (Config.bootOtbase % 1536) then n / 4 else n / 4 + 2) (n % 4 * 2 ^ 26)

/-- Verified firmware runs (R413): tags RAW, both tables at the bases that it chooses, zeroed, the capability list built and the mailbox
enabled. -/
def bootRuns (s : State) : State :=
  let ot := bootOt s
  let xt := bootXt s
  let clear (m : List Host.Cell) : List Host.Cell :=
    m.filter fun x => !((ot ≤ x.1 && x.1 < ot + 2 ^ 29) || (xt ≤ x.1 && x.1 < xt + 2 ^ 26))
  raiseVector 2 { s with
    tags := []
    mem := clear s.mem
    rostered := []
    pkg := { s.pkg with
      otbase := BitVec.ofNat 56 ot
      xtbase := BitVec.ofNat 56 xt
      bootReady := true
      bootStage := 4
      bootErr := 0 } }

/-- FIRMWARE_BOOT (R413): the boot ROM verifies the image, and runs it or not. The stages that it passes through stand in BOOTST only
within this step. -/
def actFirmwareBoot (s : State) : State := if s.pkg.bootImage = 0 then bootRuns s else bootFails s
def execFirmwareBoot (s : State) : Host.Outcome State Fault Refusal := .next (actFirmwareBoot s)

/-- ATTESTATION_REPORT (R413): a report over the host's nonce in the report buffer; the attestation status has changed (R415). -/
def actAttestationReport (s : State) : State := raiseVector 2 (s.modPkg fun p => { p with report := Config.attestation p.nonce })
def execAttestationReport (s : State) : Host.Outcome State Fault Refusal := .next (actAttestationReport s)

/-! ### Corrected errors (R300, R411) -/

/-- A unit that has reached the threshold is declared lastingly faulty and reported; a core is vacated, then fenced, an Erg port is
fenced at once, a memory is only reported. -/
def declareFaulty (kind n count : Nat) (s : State) : State :=
  let s := raiseVector 3 (postService 3 (serviceBody 1 kind n count s.pkg.cyc) s)
  let s := s.modPkg fun p => { p with declared := p.declared ++ [(kind, n)] }
  match kind with
  | 0 => requestVacate n (s.modCore n fun c => { c with faulty := true })
  | 5 => actErgPortDown n (s.modPkg fun p => { p with ergFenced := p.ergFenced ||| (1#16 <<< n) })
  | _ => s

/-- The cycles of the counting window: ERRWIN milliseconds. -/
def errorWindow (p : Package) : Nat := p.errwin.toNat * 850000

/-- One corrected error counted at its unit. -/
def countError (kind n : Nat) (s : State) : State :=
  let s := if errorWindow s.pkg < (s.pkg.cyc - s.pkg.errFrom).toNat then
    s.modPkg fun p => { p with errCounts := [], errFrom := p.cyc } else s
  let count := match s.pkg.errCounts.find? fun x => x.1 = kind && x.2.1 = n with
    | some x => x.2.2 + 1
    | none => 1
  s.modPkg fun p => { p with errCounts := (kind, n, count) :: p.errCounts.filter fun x => !(x.1 = kind && x.2.1 = n) }

/-- The units whose count has reached the threshold within the window, and which are not declared yet. -/
def faultyUnits (p : Package) : List (Nat × Nat × Nat) :=
  if errorWindow p < (p.cyc - p.errFrom).toNat then []
  else p.errCounts.filter fun x => p.errthr.toNat ≤ x.2.2 && !p.declared.contains (x.1, x.2.1)

/-- The corrected errors that wait to be counted are counted, and the units that have reached the threshold are declared. -/
def settleErrors (s : State) : State :=
  let s := s.corrections.foldl (fun s x => countError x.1 x.2 s) { s with corrections := [] }
  (faultyUnits s.pkg).foldl (fun s x => declareFaulty x.1 x.2.1 x.2.2 s) s

/-! ### The capability list (R412) -/

/-- Enabled cores: those not fenced off. -/
def enabledCores (s : State) : Nat := 3072 - (s.listed.filter fun k => (s.coreAt k).fencedOff).length

/-- Byte j of the enabled bitmap. -/
def enabledByte (s : State) (j : Nat) : Nat :=
  (List.range 8).foldl (fun n b => n + if (s.coreAt (8 * j + b)).fencedOff then 0 else 2 ^ b) 0

/-- The places that the model gives the bitmap, the report buffer and the nonce. DESIGN CHOICE (log 30). -/
def bitmapAt : Nat := 0x6_1000
def reportAt : Nat := 0x6_2000
def nonceAt : Nat := 0x6_3000

/-- Entry i of the list: its ID and its data word. -/
def capability (s : State) (i : Nat) : Nat × Nat :=
  match i with
  | 0 => (1, enabledCores s % 2 ^ 12 + bitmapAt * 2 ^ 32)
  | 1 => (2, (enabledPorts s.pkg).toNat)
  | 2 => (3, 16)
  | 3 => (4, 65536)
  | 4 => (5, 0x5_0000)
  | _ => (6, reportAt)

/-- The doubleword at an offset of the capability area, which firmware builds and which reads 0 before (R413): entries of 16 bytes, the
data word second, VER 0 in each. DESIGN CHOICE (log 44): R412 gives VER no value. -/
def capWord (s : State) (off : Nat) : Nat :=
  if !s.pkg.bootReady then 0
  else if off < 0x6_0000 + 16 * 6 then
    let i := (off - 0x6_0000) / 16
    if (off - 0x6_0000) % 16 < 8 then (capability s i).1 + (if i < 5 then (0x6_0000 + 16 * (i + 1)) * 2 ^ 32 else 0)
    else (capability s i).2
  else if bitmapAt ≤ off && off < bitmapAt + 384 then
    (List.range 8).foldl (fun n b => n + enabledByte s (off - bitmapAt + b) * 2 ^ (8 * b)) 0
  else if reportAt ≤ off && off < reportAt + 0x1000 then leValue ((s.pkg.report.drop (off - reportAt)).take 8)
  else if nonceAt ≤ off && off < nonceAt + 32 then leValue ((s.pkg.nonce.drop (off - nonceAt)).take 8)
  else 0

/-! ### Traces as steps (R431, R432) -/

/-- A sample of a core is due: it traces, is not idle, and its interval has passed (R432). -/
def sampleDue (s : State) (c : Core) : Bool :=
  c.trEn && c.trState ≠ 0 && c.smpint ≠ 0 && sampleEvery c ≤ (s.pkg.cyc - c.smpFrom).toNat

/-- The address of the oldest instruction not retired: the captured one that the sequencer issues next, before whatever follows its REPX
(R162, R432). -/
def Core.oldest (c : Core) : Word :=
  match (if c.rep.state = 2 then c.rep.cap[c.rep.pos]? else none) with
  | some x => x.pc
  | none => c.pc

/-- SAMPLE_RECORD (R432): PC and RPC of a core that is not idle, once the interval has passed. -/
def actSampleRecord (core : Nat) (s : State) : State :=
  let c := s.coreAt core
  if sampleDue s c then
    (traceExtended core 0xF2 c.oldest c.rpc s).modCore core fun c => { c with smpFrom := c.smpFrom + BitVec.ofNat 64 (sampleEvery c) }
  else s
def execSampleRecord (core : Nat) (s : State) : Host.Outcome State Fault Refusal := .next (actSampleRecord core s)

/-- TRACE_FLUSH (R431). -/
def execTraceFlush (core : Nat) (s : State) : Host.Outcome State Fault Refusal := .next (traceFlush core s)

end Sys2Proof.Machine
end

