-- ==== Sys2Proof/Machine/CopyMem.lean ====
section
/-!
DEFINITION. Moving bytes between homes (R208 to R214, R389): places, pieces, the tag rule, additions, path classes.
-/

namespace Sys2Proof.Machine

/-- A side of a copy. -/
inductive Side where
  | src | dst
  deriving DecidableEq, Repr

/-- A physical place that answers, or the stop reason of a lost link (R214). -/
def linkReason (s : State) (p : Nat) : Option Nat :=
  if reachable s p then none else if kindOf p = 3 then some 8 else some 7

/-- Where byte `off` of a run that begins at an address lies, on one side of a copy by core k, `n` bytes of one block, or the stop reason of
R214. A run does not go on in the next object (R277). -/
def copyWhere (s : State) (k : Nat) (side : Side) (base : Word) (off n : Nat) : Except Nat Nat :=
  let a := base + BitVec.ofNat 64 off
  if base.getLsbD 63 then
    match spaceOf a with
    | 0 | 7 => .error 10
    | 5 | 6 => .error 3
    | _ =>
      match localTarget (s.focus k) a n (if side = .dst then .store else .load) with
      | .ok (.sram p _ _) => .ok p
      | .ok _ => .error 3
      | .error t => .error (if t.cause = 0x05 then 3 else 10)
  else
    if 2 ^ 40 ≤ objOff base + off then .error (if side = .src then 1 else 2)
    else match walk s (objId a) (objOff a) n (if side = .dst then .write else .read) with
    | .ok x => .ok x.phys
    | .error (.invalid 6) => .error 5
    | .error (.invalid _) => .error 4
    | .error .bounds => .error (if side = .src then 1 else 2)
    | .error .permission => .error 3
    | .error .nonResident => .error 5

/-- The stop reason of a block that holds an uncorrectable error; of host memory, that the host refuses (R214, R423). -/
def spoiltReason (p : Nat) : Nat := if kindOf p = 3 then 3 else 6

/-- The physical place of `n` bytes of one block of a run, on one side of a copy by core k, or the stop reason of R214. A destination block that
holds an uncorrectable error takes only a whole block with its tag (R301); the reason that it stops a copy with is a DESIGN CHOICE
(log 14). -/
def copyPlace (s : State) (k : Nat) (side : Side) (base : Word) (off n : Nat) (tagged : Bool := false) : Except Nat Nat :=
  match copyWhere s k side base off n with
  | .error e => .error e
  | .ok p =>
    match linkReason s p with
    | some r => .error r
    | none =>
      let spoilt := match side with
        | .src => s.ecc.contains (blockOf p)
        | .dst => mergeRefused s (blockOf p) (byteMask (p % 64) n) (if tagged then BitVec.allOnes 5 else 0)
      if spoilt then .error (spoiltReason p) else .ok p

/-- A merge of bytes at a place, counted through its block. -/
def putBytes (p : Nat) (bs : List Byte) (mask : BitVec 64) (tag : Option Tag) (s : State) : State :=
  homeMerge s (blockOf p) (placed (p % 64) bs) (byteMask (p % 64) bs.length &&& mask) (tag.getD 0)
    (if tag.isSome then BitVec.allOnes 5 else 0)

/-- Element sums of CPYA: `w` bytes each, F32 or B16, rounded once to nearest even, NaN as the default NaN (R211). -/
def addBytes (b16 : Bool) (dst src : List Byte) : List Byte :=
  let f := if b16 then fmtB16 else fmtF32
  let w := if b16 then 2 else 4
  (List.range (dst.length / w)).flatMap fun j =>
    let x := leValue ((dst.drop (w * j)).take w)
    let y := leValue ((src.drop (w * j)).take w)
    leBytes w (f.add .rne x y).1

/-- A piece of a run: its offset and length, and whether the destination block takes the tag of its source block with it (R210). -/
structure Piece where
  off : Nat
  len : Nat
  tag : Bool
  deriving DecidableEq, Repr

/-- Whether a block that the whole-block rule of R210 gives its source block's tag takes it: never (R211), always, or freely. -/
inductive TagPass where
  | never | always | maybe
  deriving DecidableEq, Repr

/-- How a piece of a copy is written: whole; added (R211); whole or added under a free choice of its bytes (R214); with free bytes (R210).
Free values are numbered from n. -/
inductive Writing where
  | plain
  | sum (b16 : Bool)
  | mixed (b16 : Option Bool) (n : Nat)
  | free (pass : TagPass) (n : Nat)
  deriving DecidableEq, Repr

/-- A piece within one source block and one destination block moved from p to q. In a stopped chunk the tag of a block that would take
one is old or new, freely; in an overlapping copy it is the source block's, as that stands when the piece is moved. DESIGN CHOICE
(log 14). -/
def movePiece (how : Writing) (x : Piece) (p q : Nat) (s : State) : State :=
  let bs := physBytes s p x.len
  let sums (b16 : Bool) : List Byte := addBytes b16 (physBytes s q x.len) bs
  let tagged (n : Nat) (pass : TagPass) : Option Tag :=
    if x.tag && (match pass with
      | .never => false
      | .always => true
      | .maybe => Config.pick (n + x.off) 2 % 2 = 1) then some (physTag s p) else none
  match how with
  | .plain => putBytes q bs (BitVec.allOnes 64) (tagged 0 .always) s
  | .sum b16 => putBytes q (sums b16) (BitVec.allOnes 64) none s
  | .mixed none n => putBytes q bs (Config.freeWord (n + x.off)) (tagged n .maybe) s
  | .mixed (some b16) n => putBytes q (sums b16) (Config.freeWord (n + x.off)) none s
  | .free pass n =>
    putBytes q ((List.range x.len).map fun j => Config.freeByte (n + x.off + j)) (BitVec.allOnes 64) (tagged n pass) s

/-- The pieces of a run, of those that stay within one source block and one destination block. The bytes of the copy, or of its gather
entry, begin at destination address `lo`: a block that lies wholly in them takes its tag with its last piece, however the chunks cut
it (R210, R212). -/
def runPieces (lo src dst n : Nat) : Nat → Nat → List Piece
  | 0, _ => []
  | fuel + 1, off =>
    if n ≤ off then []
    else
      let m := min (n - off) (min (64 - (src + off) % 64) (64 - (dst + off) % 64))
      let whole := src % 64 = dst % 64 && (dst + off + m) % 64 = 0 && lo + 64 ≤ dst + off + m
      ⟨off, m, whole⟩ :: runPieces lo src dst n fuel (off + m)

/-- A piece is written with a tag. -/
def Writing.tags (how : Writing) (x : Piece) : Bool :=
  match how with
  | .plain | .free .always _ => x.tag
  | .sum _ | .mixed _ _ | .free .never _ | .free .maybe _ => false

/-- One end of what is left of a run: the address at which the run begins, in whose object it stays, and how far it has come. -/
structure End where
  base : Word
  off : Nat
  deriving DecidableEq, Repr

/-- The address that the end has come to. -/
def End.at_ (e : End) : Word := e.base + BitVec.ofNat 64 e.off

/-- The physical places of a piece, or the stop reason of R214 and the side that has it. Where both sides of the same bytes fail, the stop
has the source's reason. DESIGN CHOICE (log 14): the rules name one reason and give no order. -/
def piecePlaces (s : State) (k : Nat) (src dst : End) (off n : Nat) (tagged : Bool) : Except (Nat × Side) (Nat × Nat) :=
  match copyPlace s k .src src.base (src.off + off) n, copyPlace s k .dst dst.base (dst.off + off) n tagged with
  | .ok p, .ok q => .ok (p, q)
  | .error e, _ => .error (e, .src)
  | _, .error e => .error (e, .dst)

/-- Where a run has stopped: the offset and the length of the piece, the reason of R214, and the side that failed. -/
structure RunStop where
  off : Nat
  len : Nat
  reason : Nat
  side : Side
  deriving DecidableEq, Repr

/-- Bytes moved piece by piece, up to the first piece that fails. -/
def moveRun (k : Nat) (how : Writing) (src dst : End) : List Piece → State → State × Option RunStop
  | [], s => (s, none)
  | x :: rest, s =>
    match piecePlaces s k src dst x.off x.len (how.tags x) with
    | .ok (p, q) => moveRun k how src dst rest (l2Refresh (clusterOf k) q (movePiece how x p q s))
    | .error (e, side) => (s, some ⟨x.off, x.len, e, side⟩)

/-- The pieces that can be moved, moved. -/
def moveWhere (k : Nat) (how : Writing) (src dst : End) : List Piece → State → State
  | [], s => s
  | x :: rest, s =>
    moveWhere k how src dst rest
      (match piecePlaces s k src dst x.off x.len (how.tags x) with
      | .ok (p, q) => l2Refresh (clusterOf k) q (movePiece how x p q s)
      | .error _ => s)

/-- The pieces of a run of at most n bytes; the bytes that it belongs to begin at destination address `lo`. -/
def piecesOf (lo : Word) (src dst : End) (n : Nat) : List Piece := runPieces lo.toNat src.at_.toNat dst.at_.toNat n (2 * n + 2) 0

/-- A run of at most n bytes moved by core k. -/
def copyRun (k : Nat) (how : Writing) (lo : Word) (src dst : End) (n : Nat) (s : State) : State × Option RunStop :=
  moveRun k how src dst (piecesOf lo src dst n) s

/-- The physical spans of a run of bytes, cut at multiples of 4 KiB, which no page or granule crosses (R278). -/
def spansOf (s : State) (k : Nat) (side : Side) (a : Word) (n : Nat) : List (Nat × Nat) :=
  let first := min n (4096 - a.toNat % 4096)
  ((0, first) :: (List.range ((n - first + 4095) / 4096)).map fun j => (first + 4096 * j, min 4096 (n - first - 4096 * j))).filterMap fun x =>
    match copyWhere s k side a x.1 1 with
    | .ok p => some (p, x.2)
    | .error _ => none

/-- Two physical spans have a byte in common. -/
def spanMeets (x y : Nat × Nat) : Bool := x.1 < y.1 + y.2 && y.1 < x.1 + x.2

/-- Some source run of a copy shares a byte of memory with its destination run, under whatever addresses (R210, R286). -/
def copyOverlaps (s : State) (k : Nat) (runs : List (Word × Nat)) (dst : Word) (n : Nat) : Bool :=
  let d := spansOf s k .dst dst n
  runs.any fun r => (spansOf s k .src r.1 r.2).any fun x => d.any fun y => spanMeets x y

/-- A line's block overlaps a run of bytes of an object. -/
def lineIn (a : Word) (n : Nat) (l : Line) : Bool :=
  !a.getLsbD 63 && objId l.addr = objId a && objOff a < objOff l.addr + 64 && objOff l.addr < objOff a + n

/-- The lines of a source range are written back, those of a destination range written back and invalidated (R210). -/
def flushSource (k : Nat) (a : Word) (n : Nat) (s : State) : State := writeBackAll k (lineIn a n) s
def flushDest (k : Nat) (a : Word) (n : Nat) (s : State) : State := purgeLines k (lineIn a n) s

/-- The clean lines of a destination range leave L1 (R217). -/
def dropCleanDest (k : Nat) (a : Word) (n : Nat) (s : State) : State :=
  s.modCore k fun c => { c with lines := c.lines.filter fun l => !(lineIn a n l && l.isClean) }

/-- The path class of a place (R213). -/
def placeClass (s : State) (k p : Nat) : Nat :=
  if kindOf p = 3 then 4
  else if packageOf p ≠ s.pkg.pkgid.toNat then 3
  else
    let mesa := p / 2 ^ 38 % 4
    let core := p / 2 ^ 28 % 2 ^ 10
    if kindOf p = 1 && core < 768 && clusterOf (mesa * 768 + core) = clusterOf k then 0
    else if mesa = mesaOf k then 1
    else 2

/-- The class of an address's first byte; 0 where it cannot be translated. -/
def pathClass (s : State) (k : Nat) (side : Side) (a : Word) : Nat :=
  match copyWhere s k side a 0 1 with
  | .ok p => placeClass s k p
  | .error _ => 0

/-- Latency and rate of a class (R213). -/
def classLat (c : Nat) : Nat := [24, 180, 280, 620, 1700].getD c 1700
def classRate (c : Nat) : Nat := [64, 32, 16, 16, 8].getD c 8

end Sys2Proof.Machine
end

