-- ==== Sys2Proof/Machine/Experts.lean ====
section
/-!
DEFINITION. The expert table and what its home does (R370 to R391): entries, routing, notices, invalidations.
-/

namespace Sys2Proof.Machine

/-! ### Entries (R371, R372) -/

/-- The physical address of an entry, and of its slot n. -/
def expertAddr (s : State) (name : BitVec 16) : Nat := s.pkg.xtbase.toNat + 1024 * name.toNat
def expertSlotAddr (s : State) (name : BitVec 16) (n : Nat) : Nat := expertAddr s name + 64 + 32 * n

/-- The header's doubleword at an offset. -/
def xWord (s : State) (name : BitVec 16) (off : Nat) : Word := physWord s (expertAddr s name + off)

/-- The fields of R381 as an entry's header holds them. -/
def headerOf (s : State) (x : BitVec 16) : Rostered :=
  let w := xWord s x 0
  { v := w.getLsbD 0
    hash := w.getLsbD 1
    owner := (w.extractLsb' 16 12).toNat
    jobj := ((xWord s x 32).extractLsb' 0 63).setWidth 64
    plen := ((xWord s x 40).extractLsb' 0 32).toNat }

/-- The fields of R381 in force: those of the header when an XTINV that named the expert last completed, and every other field as it stands.
An entry written against R381 behaves in the same way, where the rule leaves its behaviour unspecified. DESIGN CHOICE (log 34). -/
def rosteredAt (s : State) (x : BitVec 16) : Rostered := (assocGet s.rostered x.toNat).getD ⟨false, false, 0, 0, 0⟩

/-- The header's fields of R381 come into force. -/
def roster (x : BitVec 16) (s : State) : State :=
  { s with rostered := (x.toNat, headerOf s x) :: s.rostered.filter fun r => r.1 ≠ x.toNat }

/-- Header fields. -/
def xValid (s : State) (x : BitVec 16) : Bool := (rosteredAt s x).v
def xHash (s : State) (x : BitVec 16) : Bool := (rosteredAt s x).hash
def xOwner (s : State) (x : BitVec 16) : Nat := (rosteredAt s x).owner
def xNch (s : State) (x : BitVec 16) : Nat := ((xWord s x 0).extractLsb' 32 6).toNat
def xRoster (s : State) (x : BitVec 16) : BitVec 8 := (xWord s x 0).extractLsb' 40 8
def xCver (s : State) (x : BitVec 16) : BitVec 32 := (xWord s x 8).extractLsb' 0 32
def xGrow (s : State) (x : BitVec 16) : Nat := ((xWord s x 16).extractLsb' 0 32).toNat
def xShrink (s : State) (x : BitVec 16) : Nat := ((xWord s x 16).extractLsb' 32 32).toNat
def xJroster (s : State) (x : BitVec 16) : BitVec 16 := (xWord s x 24).extractLsb' 0 16
def xHanded (s : State) (x : BitVec 16) : BitVec 16 := (xWord s x 24).extractLsb' 16 16
def xJoined (s : State) (x : BitVec 16) : BitVec 16 := (xWord s x 24).extractLsb' 32 16
def xJobj (s : State) (x : BitVec 16) : Word := (rosteredAt s x).jobj
def xPlen (s : State) (x : BitVec 16) : Nat := (rosteredAt s x).plen

/-- A header doubleword's bits lo up to lo + n − 1 written. -/
def setX (x : BitVec 16) (off lo n v : Nat) (s : State) : State :=
  physPutNat s (expertAddr s x + off) 8 (setField (xWord s x off) lo n v).toNat

/-- A replica slot. -/
structure Replica where
  core : Nat
  state : Nat
  wobj : Nat
  wver : BitVec 32
  routed : Word
  outst : Word
  deriving DecidableEq, Repr

/-- Slot n of an entry. -/
def replica (s : State) (x : BitVec 16) (n : Nat) : Replica :=
  let p := expertSlotAddr s x n
  let w := physWord s p
  { core := (w.extractLsb' 0 12).toNat
    state := (w.extractLsb' 12 3).toNat
    wobj := (w.extractLsb' 16 23).toNat
    wver := (physWord s (p + 8)).extractLsb' 0 32
    routed := physWord s (p + 16)
    outst := physWord s (p + 24) }

/-- An empty slot. -/
def Replica.empty : Replica := ⟨0, 0, 0, 0, 0, 0⟩

/-- Slot n written. -/
def setReplica (x : BitVec 16) (n : Nat) (r : Replica) (s : State) : State :=
  physPut s (expertSlotAddr s x n)
    (leBytes 8 (r.core + r.state * 2 ^ 12 + r.wobj * 2 ^ 16) ++ leBytes 8 r.wver.toNat ++ leBytes 8 r.routed.toNat ++
      leBytes 8 r.outst.toNat)

/-- The routable slots, ascending (R375). -/
def routable (s : State) (x : BitVec 16) : List Nat :=
  (List.range 16).filter fun n => (replica s x n).state = 2 && (replica s x n).wver = xCver s x

/-- ROSTER advanced by one. -/
def advanceRoster (x : BitVec 16) (s : State) : State := setX x 0 40 8 (xRoster s x + 1).toNat s

/-- An expert invalidated in every router cache (R377). -/
def invalidateExpert (x : BitVec 16) (s : State) : State :=
  { s with clusters := s.clusters.map fun (g : Nat × Cluster) => (g.1, { g.2 with router := g.2.router.filter fun r => r.1 ≠ x.toNat }) }

/-! ### Notices (R378) -/

/-- A notice merged into one of its kind that waits, or added. -/
def notice (x : BitVec 16) (kind slot : Nat) (v : Word) (sender : Nat) (s : State) : State :=
  let same (t : Transit) : Bool := match t with
    | .notice y k _ _ _ _ _ _ => y = x && k = kind
    | _ => false
  if s.net.any same then
    { s with net := s.net.map fun t => match t with
        | .notice y k n cver w dst ch by_ =>
          if y = x && k = kind then
            (if kind = 1 then .notice y k slot cver v dst ch by_ else .notice y k n cver (w ||| v) dst ch by_)
          else t
        | t => t }
  else { s with net := s.net ++ [.notice x kind slot (xCver s x) v (xOwner s x) (xNch s x) sender] }

/-- The 16 bytes of a notice. -/
def noticeBytes (x : BitVec 16) (kind slot : Nat) (cver : BitVec 32) (v : Word) : List Byte :=
  leBytes 2 x.toNat ++ leBytes 1 kind ++ leBytes 1 (if kind = 1 then slot else 0) ++ leBytes 4 cver.toNat ++ leBytes 8 v.toNat

/-! ### Routing (R376, R377) -/

/-- Nothing was routed. -/
def noRoute : Word := BitVec.allOnes 64

/-- The slot that ExRoute chooses among routable ones. -/
def chooseSlot (s : State) (x : BitVec 16) (key : BitVec 32) (r : List Nat) : Option Nat :=
  if xHash s x then
    let h := philox 0 key.toNat x.toNat 0 0
    r[h % r.length]?
  else leastBy (fun n => (replica s x n).outst.toNat) r

/-- The set of slots as a mask. -/
def slotMask (r : List Nat) : BitVec 16 := r.foldl (fun m n => m ||| (1#16 <<< n)) 0

/-- A cluster's router cache takes an expert's roster and routable set, at each EXROUTE of the cluster that the home accepts; of 257 entries
the one taken first leaves. R377 says neither. DESIGN CHOICE (log 6). -/
def fillRouter (g : Nat) (x : BitVec 16) (s : State) : State :=
  s.modCluster g fun c => { c with router := ((x.toNat, xRoster s x, slotMask (routable s x)) :: c.router.filter fun r => r.1 ≠ x.toNat).take 256 }

/-- ExRoute, at the home, for core k. -/
def exRoute (k : Nat) (x : BitVec 16) (key : BitVec 32) (n : Word) (s : State) : Word × State :=
  if !xValid s x then (noRoute, s)
  else
    match chooseSlot s x key (routable s x) with
    | none => (noRoute, s)
    | some j =>
      let r := replica s x j
      let s := setReplica x j { r with routed := r.routed + n, outst := r.outst + n } s
      let s := setX x 24 0 16 (xJroster s x ||| (1#16 <<< j)).toNat s
      let s := if xGrow s x ≠ 0 && r.outst.toNat ≤ xGrow s x && xGrow s x < (r.outst + n).toNat then
        notice x 1 j (r.outst + n) k s else s
      let v := BitVec.ofNat 64 (r.core + j * 2 ^ 12 + r.wobj * 2 ^ 16 + (xRoster s x).toNat * 2 ^ 39)
      (v, fillRouter (clusterOf k) x s)

/-- EXPERT_HOME_OPERATION (R370, R384): the n-th packet under way is a request; its answer sets out. -/
def actExpertHomeOperation (n : Nat) (s : State) : State :=
  match s.net[n]? with
  | some (.expert core name (.route key count)) =>
    let (v, s) := exRoute core name key count { s with net := s.net.eraseIdx n }
    { s with net := s.net ++ [.expertAnswer core v] }
  | _ => s
def execExpertHomeOperation (n : Nat) (s : State) : Host.Outcome State Fault Refusal := .next (actExpertHomeOperation n s)

/-- EXPERT_ANSWER (R384, R385): d fills, and RPC has moved past the EXROUTE. -/
def actExpertAnswer (n : Nat) (s : State) : State :=
  match s.net[n]? with
  | some (.expertAnswer core v) =>
    { s with net := s.net.eraseIdx n }.modCore core fun c =>
      match c.exroute with
      | some (d, next) => { c.setS d v with exroute := none, rpc := next }
      | none => c
  | _ => s
def execExpertAnswer (n : Nat) (s : State) : Host.Outcome State Fault Refusal := .next (actExpertAnswer n s)

/-! ### Invalidations (R380) -/

/-- XTINV (R380): it waits while the issuer's invalidation is in progress. -/
def actXtinv (unit : Nat) (v : Word) (s : State) : State :=
  if (s.commander unit).xtbusy then s.defer (.xtinv unit v)
  else s.modCommander unit fun c => { c with xtbusy := true, xtname := v.extractLsb' 0 16 }
def execXtinv (unit : Nat) (v : Word) (s : State) : Host.Outcome State Fault Refusal := .next (actXtinv unit v s)

/-- INVALIDATION_COMPLETE (R380): the expert's edited fields apply (R381). -/
def actInvalidationComplete (unit : Nat) (s : State) : State :=
  let c := s.commander unit
  if c.xtbusy then (roster c.xtname (invalidateExpert c.xtname s)).modCommander unit fun c => { c with xtbusy := false, xtcount := c.xtcount + 1 }
  else s
def execInvalidationComplete (unit : Nat) (s : State) : Host.Outcome State Fault Refusal := .next (actInvalidationComplete unit s)

end Sys2Proof.Machine
end

