-- ==== Sys2Proof/Machine/Net.lean ====
section
/-!
DEFINITION. What is under way between agents, arriving (R49, R148 to R152, R255 to R257, R310 to R312, R324, R325, R341, R347 to R350,
R378): one step for each arrival.
-/

namespace Sys2Proof.Machine

/-! ### Order of packets -/

/-- The path on which packets keep their order (R152, R255, R341, R345): source, destination, and a channel or a kind. -/
def Transit.path (t : Transit) : Option (Nat × Nat × Nat) :=
  match t with
  | .msg _ src dst ch _ _ _ => some (src, dst, ch)
  | .hold src dst ch _ => some (src, dst, ch)
  | .ready src dst ch _ => some (src, dst, ch)
  | .push src dst _ _ => some (src, dst, 64)
  | .dec src ea _ _ _ => some (src, (ea.extractLsb' 32 12).toNat, 65)
  | .amo src _ _ phys _ => some (src, homeOf phys, 66)
  | _ => none

/-- The n-th packet under way, if none before it goes the same path. -/
def packetAt (s : State) (n : Nat) : Option Transit :=
  s.net[n]?.filter fun t => t.path.isNone || !(s.net.take n).any fun u => u.path = t.path

/-- The packets without the n-th. -/
def takePacket (n : Nat) (s : State) : State := { s with net := s.net.eraseIdx n }

/-! ### Atomics (R148) -/

/-- The lesser and the greater of two values of w bits, as signed or unsigned. -/
def amoPick (w : Nat) (signed less : Bool) (x y : Nat) : Nat :=
  let lt := if signed then decide ((BitVec.ofNat w x).toInt < (BitVec.ofNat w y).toInt) else decide (x < y)
  if lt = less then x else y

/-- AtomicAtHome of R148: the value written, or none where CAS fails. -/
def amoResult (op : AmoOp) (w old b e : Nat) : Option Nat :=
  match op with
  | .add => some ((old + b) % 2 ^ w)
  | .and => some (old &&& b)
  | .or => some (old ||| b)
  | .xor => some (old ^^^ b)
  | .min => some (amoPick w true true old b)
  | .max => some (amoPick w true false old b)
  | .minu => some (amoPick w false true old b)
  | .maxu => some (amoPick w false false old b)
  | .swap => some b
  | .cas => if old = e then some b else none

/-- An atomic performed at a physical address: the old value, and the package after it. -/
def amoAt (op : AmoOp) (bytes p : Nat) (b e : Word) (s : State) : Nat × State :=
  let w := 8 * bytes
  let old := physNat s p bytes
  match amoResult op w old (b.toNat % 2 ^ w) (e.toNat % 2 ^ w) with
  | some v => (old, physPutNat s p bytes (asHeldAt s p v))
  | none => (old, s)

/-- ATOMIC_AT_HOME (R148): the n-th packet is a posted atomic. No copy in a slice changes with it (R150, R305). The rules name no
report for a posted atomic whose block holds an uncorrectable error: it has no effect there. DESIGN CHOICE (log 33). -/
def actAtomicAtHome (n : Nat) (s : State) : State :=
  match packetAt s n with
  | some (.amo _ op bytes phys b) =>
    let s := takePacket n s
    if !reachable s phys then countDrop s phys
    else if s.ecc.contains (blockOf phys) then s
    else (amoAt op bytes phys b 0 s).2
  | _ => s
def execAtomicAtHome (n : Nat) (s : State) : Host.Outcome State Fault Refusal := .next (actAtomicAtHome n s)

/-! ### The outbox leaving (R68, R150, R255) -/

/-- The core's own line under a posted atomic gives way, unless it is uncommitted (R150). -/
def settleLine (k : Nat) (ea : Word) (s : State) : State :=
  if ea.getLsbD 63 then s else purgeLines k (fun l => l.addr = blockAddr ea) s

/-- The packet of an outbox entry that may leave, or none while its destination has no room (R255, R341, R419). -/
def leaving (s : State) (k : Nat) (e : OutEntry) : Option Transit :=
  match e.cargo with
  | .msg dst ch bytes =>
    if dst = 0xFFF then (if hqRoom s bytes then some (.msg k k dst ch bytes none e.by_) else none)
    else if channelFull s dst ch then none
    else some (.msg k k dst ch bytes none e.by_)
  | .msgAcq dst ch bytes cairn => if channelFull s dst ch then none else some (.msg k k dst ch bytes (some cairn) e.by_)
  | .hold dst ch v => some (.hold k dst ch v)
  | .ready dst ch v => some (.ready k dst ch v)
  | .amo op bytes _ phys b => some (.amo k op bytes phys b)
  | .dec ea phys n => some (.dec k ea phys n e.by_)
  | .push dst r x => if dequeTakes s dst then some (.push k dst r x) else none

/-- The entry at the head of a core's outbox, once it may leave. -/
def outboxHead (s : State) (k : Nat) : Option (OutEntry × Transit) :=
  match (s.coreAt k).outbox with
  | e :: _ => if e.committed && !e.refused then (leaving s k e).map (e, ·) else none
  | [] => none

/-- OUTBOX_ENTRY_LEAVE (R255). -/
def actOutboxEntryLeave (core : Nat) (s : State) : State :=
  match outboxHead s core with
  | none => s
  | some (e, t) =>
    let s := s.modCore core fun c => { c with outbox := c.outbox.tail }
    let s := match e.cargo with
      | .amo _ _ ea _ _ => settleLine core ea s
      | _ => s
    { s with net := s.net ++ [t] }
def execOutboxEntryLeave (core : Nat) (s : State) : Host.Outcome State Fault Refusal := .next (actOutboxEntryLeave core s)

/-! ### Messages arriving (R255 to R257, R378) -/

/-- MESSAGE_DELIVERY (R255, R256, R378, R417, R418). -/
def actMessageDelivery (n : Nat) (s : State) : State :=
  match packetAt s n with
  | some (.msg sender src dst ch bytes cairn by_) =>
    let old := s
    let s := takePacket n s
    if dst = 0xFFF then (if s.pkg.linkUp then hqPut sender ch bytes s else old)
    else if chV (chWord s dst ch) then placeMessage dst ch sender bytes cairn s
    else if src = 0xFFF then countRefused s
    else
      let cargo : Cargo := match cairn with
        | some c => .msgAcq dst ch bytes c
        | none => .msg dst ch bytes
      { s with net := s.net ++ [.msgRefused src ⟨cargo, by_, true, true, false, false⟩] }
  | some (.notice x kind slot cver v dst ch sender) =>
    if !chV (chWord s dst ch) then takePacket n s
    else if channelFull s dst ch then s
    else placeMessage dst ch sender (noticeBytes x kind slot cver v) none (takePacket n s)
  | _ => s
def execMessageDelivery (n : Nat) (s : State) : Host.Outcome State Fault Refusal := .next (actMessageDelivery n s)

/-- An entry placed behind the first refused one. -/
def behindRefused (e : OutEntry) : List OutEntry → List OutEntry
  | [] => [e]
  | x :: xs => if x.refused then x :: e :: xs else x :: behindRefused e xs

/-- A refused entry back at the head of its outbox, but behind one that the core's freeze has reported: on that one a supervisor command
acts (R256). -/
def Core.takesBack (c : Core) (e : OutEntry) : Core :=
  { c with outbox :=
      if c.isFrozen && c.frozenEntry then behindRefused { e with refused := true } c.outbox else { e with refused := true } :: c.outbox }

/-- A refused entry has returned; a sender that is idle, or waits at a commit point, freezes at once (R256, R348). -/
def returnEntry (k : Nat) (e : OutEntry) (s : State) : State := onCore k reportRefusal (s.modCore k (·.takesBack e))

/-- MESSAGE_REFUSAL (R256). -/
def actMessageRefusal (n : Nat) (s : State) : State :=
  match packetAt s n with
  | some (.msgRefused src e) => returnEntry src e (takePacket n s)
  | _ => s
def execMessageRefusal (n : Nat) (s : State) : Host.Outcome State Fault Refusal := .next (actMessageRefusal n s)

/-- HOLD_ARRIVAL (R257). -/
def actHoldArrival (n : Nat) (s : State) : State :=
  match packetAt s n with
  | some (.hold _ dst ch v) => channelReady s dst ch (setChField (takePacket n s) dst ch 2 1 (if v then 1 else 0))
  | _ => s
def execHoldArrival (n : Nat) (s : State) : Host.Outcome State Fault Refusal := .next (actHoldArrival n s)

/-- READY_ARRIVAL (R257). -/
def actReadyArrival (n : Nat) (s : State) : State :=
  match packetAt s n with
  | some (.ready _ dst ch v) => channelReady s dst ch (setChField (takePacket n s) dst ch 3 1 (if v then 1 else 0))
  | _ => s
def execReadyArrival (n : Nat) (s : State) : Host.Outcome State Fault Refusal := .next (actReadyArrival n s)

/-! ### Pushes and decrements (R341, R347 to R350) -/

/-- TASK_PUSH (R339, R341): an outbox's push has held its place since it left; any other waits for room. -/
def actTaskPush (n : Nat) (s : State) : State :=
  match packetAt s n with
  | some (.push src dst r x) => if pushLands s dst x then settleVacate src (pushBottom dst r x (takePacket n s)) else s
  | _ => s
def execTaskPush (n : Nat) (s : State) : Host.Outcome State Fault Refusal := .next (actTaskPush n s)

/-- The packet of a counter below zero (R350). -/
def underflowPacket (home src : Nat) (ea new : Word) (s : State) : Packet :=
  { core := home, cause := 0x10, flags := 0x02, insn := 0, pc := 0, rpc := 0, addr := ea, tag := 0, member := 0,
    det1 := BitVec.ofNat 32 (src % 2 ^ 12), epc := 0, cyc := s.pkg.cyc, det2 := new }

/-- A zero-firing push: onto the deque, or into the push buffer (R349). -/
def fire (home : Nat) (r : TaskRecord) (s : State) : State :=
  if !dequeTakes s home || !(s.coreAt home).pushBuf.isEmpty then s.modCore home fun c => { c with pushBuf := c.pushBuf ++ [r] }
  else pushBottom home r (Carried.plain 2) s

/-- DecAtHome of R347 on a block that names its home. -/
def decrement (home src : Nat) (ea : Word) (p : Nat) (n : Word) (s : State) : State :=
  let old := physWord s p
  let new := old - n
  let r : TaskRecord := ⟨physWord s (p + 8), physWord s (p + 16), physWord s (p + 24), physWord s (p + 32)⟩
  let s := physPutNat s p 8 new.toNat
  let s := if 0 < old.toInt ∧ new = 0 then fire home r s else s
  if new.toInt < 0 then queuePacket home (underflowPacket home src ea new s) s else s

/-- DEC_AT_HOME (R347): it waits while the home's push buffer is full. A block that holds an uncorrectable error is read and decremented as
any other: R347 to R350 name no report. DESIGN CHOICE (log 33). -/
def actDecAtHome (n : Nat) (s : State) : State :=
  match packetAt s n with
  | some (.dec src ea phys amount by_) =>
    let home := (ea.extractLsb' 32 12).toNat
    if 8 ≤ (s.coreAt home).pushBuf.length then s
    else
      let s := takePacket n s
      if physNat s (phys + 40) 2 % 2 ^ 12 ≠ home then
        { s with net := s.net ++ [.decRefused src ⟨.dec ea phys amount, by_, true, true, false, false⟩] }
      else decrement home src ea phys amount s
  | _ => s
def execDecAtHome (n : Nat) (s : State) : Host.Outcome State Fault Refusal := .next (actDecAtHome n s)

/-- DEFERRED_PUSH (R349). -/
def actDeferredPush (core : Nat) (s : State) : State :=
  match (s.coreAt core).pushBuf with
  | r :: rest =>
    if !dequeTakes s core then s
    else pushBottom core r (Carried.plain 2) (s.modCore core fun c => { c with pushBuf := rest })
  | [] => s
def execDeferredPush (core : Nat) (s : State) : Host.Outcome State Fault Refusal := .next (actDeferredPush core s)

/-- DEC_REFUSAL (R348). -/
def actDecRefusal (n : Nat) (s : State) : State :=
  match packetAt s n with
  | some (.decRefused src e) => returnEntry src e (takePacket n s)
  | _ => s
def execDecRefusal (n : Nat) (s : State) : Host.Outcome State Fault Refusal := .next (actDecRefusal n s)

/-! ### Data returning (R49, R300) -/

/-- A value in flight written, its registers full. -/
def Core.fill (c : Core) (f : Inflight) : Core :=
  let c := match f.sdest with
    | some (d, v) => c.setS d v
    | none => c
  f.vdest.foldl (fun (c : Core) x => { c with vregs := c.vregs.setIfInBounds x.1 x.2, vfull := bitSet c.vfull x.1 }) c

/-- DATA_RETURN (R49): the n-th value in flight of a core. -/
def actDataReturn (core n : Nat) (s : State) : State :=
  match (s.coreAt core).inflight[n]? with
  | some f => s.modCore core fun c => { c.fill f with inflight := c.inflight.eraseIdx n }
  | none => s
def execDataReturn (core n : Nat) (s : State) : Host.Outcome State Fault Refusal := .next (actDataReturn core n s)

/-! ### Waits ending (R156, R324, R325) -/

/-- A yield request wakes the core's wait (R266, R351). -/
def yieldAsked (s : State) (k : Nat) : Bool := (s.coreAt (yieldTarget s k)).ydl ≠ 0

/-- SLEEP_EXPIRY (R156). -/
def actSleepExpiry (core : Nat) (s : State) : State :=
  match (s.coreAt core).waiting with
  | some (.sleep t) => if t.ule s.pkg.cyc || yieldAsked s core then onCore core (endWait false) s else s
  | _ => s
def execSleepExpiry (core : Nat) (s : State) : Host.Outcome State Fault Refusal := .next (actSleepExpiry core s)

/-- The monitor of a core has been triggered, or none is armed. -/
def monitorHit (s : State) (k : Nat) : Bool :=
  match s.monitors.find? (·.core = k) with
  | some m => m.hit
  | none => true

/-- The monitor of a core disarmed. -/
def disarm (k : Nat) (s : State) : State := { s with monitors := s.monitors.filter (·.core ≠ k) }

/-- MONITOR_TRIGGER (R324). -/
def actMonitorTrigger (core : Nat) (s : State) : State :=
  match (s.coreAt core).waiting with
  | some .mwait => if monitorHit s core || yieldAsked s core then onCore core (endWait false) (disarm core s) else s
  | _ => s
def execMonitorTrigger (core : Nat) (s : State) : Host.Outcome State Fault Refusal := .next (actMonitorTrigger core s)

/-- The queues that hold an undone operation due at a time (R213, R325). -/
def dueQueues (c : Core) (t : Word) : BitVec 4 :=
  (List.range 4).foldl (fun m n =>
    if (c.queues.toList.getD n CopyQueue.reset).ops.any fun o => o.promise.ule t then m ||| (1#4 <<< n) else m) 0

/-- A miss counted for the queues of a set (R325). -/
def Core.countMisses (c : Core) (m : BitVec 4) : Core :=
  { c with queues := c.queues.mapIdx fun n q =>
      if m.getLsbD n && q.miss ≠ BitVec.allOnes 16 then { q with miss := q.miss + 1 } else q }

/-- What WAITT comes to once its time has come (R325), for the core whose turn it is. -/
def checkPromise (t : Word) (trap : Bool) (counted : BitVec 4) (s : State) : State :=
  let due := dueQueues s.core t
  if due = 0 then endWait false s
  else if trap then takeFault { cause := 0x09, det1 := due.setWidth 32 } s
  else
    let c := s.core.countMisses (due &&& ~~~ counted)
    { s with core := { c with phase := .wait (.waitt t trap (counted ||| due)) } }

/-- WAITT_EXPIRY (R325). -/
def actWaittExpiry (core : Nat) (s : State) : State :=
  match (s.coreAt core).waiting with
  | some (.waitt t trap counted) =>
    if t.ule s.pkg.cyc || yieldAsked s core then onCore core (checkPromise t trap counted) s else s
  | _ => s
def execWaittExpiry (core : Nat) (s : State) : Host.Outcome State Fault Refusal := .next (actWaittExpiry core s)

/-! ### Acquires (R58, R310 to R312) -/

/-- Why the last releaser of a cairn cannot surrender it: the home refuses one of its write-backs (R301), or its package does not
answer (R427). -/
def surrenderTrap (cairn : Word) (p : Nat) (s : State) : Option Trap :=
  let lr := cairnLR s p
  if cairnMode s p ≠ 1 then none
  else if lr / 4096 = s.pkg.pkgid.toNat then
    match slotNamed (s.coreAt (lr % 4096)) cairn with
    | some n => (refusedLine (lr % 4096) (fun l => l.slot = some n) s).map (refusedBack (lr % 4096))
    | none => none
  else if (assocGet s.pkg.unreachable (lr / 4096)).isSome then some (trapAt 0x0C cairn 2)
  else none

/-- Why a request for a cairn fails at its home: the home does not answer (R427), the cairn's block holds an uncorrectable error (R71), or the
last releaser cannot surrender it (R301). -/
def acquireStop (cairn : Word) (p : Nat) (s : State) : Option Stop :=
  if !reachable s p then some (.trap (lostHome p cairn))
  else if s.ecc.contains (blockOf p) then some (.ecc (blockOf p) cairn none)
  else (surrenderTrap cairn p s).map Stop.trap

/-- The acquirer whose request has failed freezes, or replays its instruction (R71, R301, R427); a frozen one freezes with the new cause, and
RESUME executes its instruction anew. -/
def failAcquire (cairn : Word) (e : Stop) (core : Nat) (s : State) : State :=
  match (s.coreAt core).waiting with
  | some (.acquire k _ _ _ _) =>
    if k ≠ cairn then s
    else match e with
    | .ecc _ a _ => onCore core (fun s => if s.core.isFrozen then takeFault (trapAt 0x0C a) s else takeStop e s) s
    | e => onCore core (takeStop e) s
  | _ => s

/-- A message's request waits for a home, or a releaser, that does not answer, and for a cairn whose block holds an uncorrectable error:
there is no core to report to (log 8). -/
def acquireHeld (p : Nat) (s : State) : Bool :=
  !homeTakes s p ||
    (cairnMode s p = 1 && cairnLR s p / 4096 ≠ s.pkg.pkgid.toNat && (assocGet s.pkg.unreachable (cairnLR s p / 4096)).isSome)

/-- HOME_ACQUIRE (R311). -/
def actHomeAcquire (n : Nat) (s : State) : State :=
  match packetAt s n with
  | some (.acquire cairn p party excl try_) =>
    if party.msg.isSome && acquireHeld p s then s
    else match acquireStop cairn p s, party.msg with
    | some e, none => failAcquire cairn e party.core (takePacket n s)
    | _, _ =>
      let r := homeAcquire cairn p party excl try_ (takePacket n s)
      let s := r.2
      match r.1, party.msg with
      | .granted, _ => sendGrant cairn p party s
      | .busy, _ => { s with net := s.net ++ [.grant cairn p party.core 1 0] }
      | .queued, _ => s
      | .full, none => { s with net := s.net ++ [.grant cairn p party.core 2 0] }
      | .full, some _ => { s with net := s.net ++ [.acquire cairn p party excl try_] }
  | _ => s
def execHomeAcquire (n : Nat) (s : State) : Host.Outcome State Fault Refusal := .next (actHomeAcquire n s)

/-- SURRENDER (R311): the last releaser answers, and the request goes on at the home, which takes no part of a block that holds an
uncorrectable error (R301). -/
def actSurrender (n : Nat) (s : State) : State :=
  match packetAt s n with
  | some (.surrender cairn p releaser party excl try_) =>
    let s := takePacket n s
    let s := if homeTakes s p then surrender releaser cairn p s else s
    { s with net := s.net ++ [.acquire cairn p party excl try_] }
  | _ => s
def execSurrender (n : Nat) (s : State) : Host.Outcome State Fault Refusal := .next (actSurrender n s)

/-- The d of a TRYACQ.X written (R320). -/
def tryResult (try_ : Bool) (d : Nat) (v : Word) (s : State) : State := if try_ then { s with core := s.core.setS d v } else s

/-- The withdrawal of a request of core k, which an abort has sent, is still on its way to the home (R310). -/
def withdrawing (s : State) (k : Nat) : Bool := s.net.any fun t => match t with
  | .withdraw _ _ core => core = k
  | _ => false

/-- ACQUIRE_GRANT (R310). A grant that an abort has overtaken stays for its withdrawal to undo. -/
def actAcquireGrant (n : Nat) (s : State) : State :=
  match packetAt s n with
  | some (.grant cairn _ core status epoch) =>
    if withdrawing s core then s
    else
      let s := takePacket n s
      match (s.coreAt core).waiting with
      | some (.acquire k excl try_ d slot) =>
        if k ≠ cairn then s
        else
          match status.toNat with
          | 0 => onCore core (fun s => endWait true (tryResult try_ d 0 (installGrant s.cid slot excl epoch s))) s
          | 1 => onCore core (fun s => endWait true (tryResult try_ d 1 s)) s
          | _ => s
      | _ => s
  | _ => s
def execAcquireGrant (n : Nat) (s : State) : Host.Outcome State Fault Refusal := .next (actAcquireGrant n s)

/-- MESSAGE_ACQUIRE_GRANT (R58). -/
def actMessageAcquireGrant (n : Nat) (s : State) : State :=
  match packetAt s n with
  | some (.msgGrant cairn core ch slot epoch) =>
    let h : PassedHold := { cairn := cairn, exclusive := false, epoch := epoch, wait := false, loc := false, by_ := core }
    channelReady s core ch ((takePacket n s).modCore core fun c =>
      { c with buffered := c.buffered.map fun b => if b.ch = ch && b.slot = slot && !b.started then { b with grant := some h } else b })
  | _ => s
def execMessageAcquireGrant (n : Nat) (s : State) : Host.Outcome State Fault Refusal := .next (actMessageAcquireGrant n s)

/-- RELEASE_AT_HOME (R312). -/
def actReleaseAtHome (n : Nat) (s : State) : State :=
  match packetAt s n with
  | some (.release _ p core eager lrel) => homeRelease p core eager lrel.toNat (takePacket n s)
  | _ => s
def execReleaseAtHome (n : Nat) (s : State) : Host.Outcome State Fault Refusal := .next (actReleaseAtHome n s)

/-- ACQUIRE_WITHDRAWAL (R310): the request leaves the home, or its grant is undone. -/
def actAcquireWithdrawal (core : Nat) (s : State) : State :=
  match s.net.find? fun t => match t with
    | .withdraw _ _ c => c = core
    | _ => false with
  | some (.withdraw cairn p c) =>
    let s := { s with net := s.net.erase (.withdraw cairn p c) }
    let granted := s.net.any (grantsTo cairn core)
    let s := { s with net := s.net.filter fun t => !(asksFor cairn core t || grantsTo cairn core t)
                      waiters := s.waiters.filter fun w => !w.isOf cairn core }
    if !homeTakes s p then s
    else
      let s := setWaiting p s
      grantNext p (if granted then dropHolder p 0 s else s)
  | _ => s
def execAcquireWithdrawal (core : Nat) (s : State) : Host.Outcome State Fault Refusal := .next (actAcquireWithdrawal core s)

/-- ACQUIRE_RETRY (R311): a request that a full queue has refused is sent again, to the home that its cairn has now, and not while the cairn
does not translate. DESIGN CHOICE (log 27). -/
def actAcquireRetry (core : Nat) (s : State) : State :=
  match (s.coreAt core).waiting with
  | some (.acquire cairn excl try_ _ _) =>
    if s.net.any (asksFor cairn core) || s.net.any (grantsTo cairn core) || s.waiters.any (·.isOf cairn core) then s
    else
      match cairnPhys s cairn with
      | some p => { s with net := s.net ++ [.acquire cairn p ⟨core, none⟩ excl try_] }
      | none => s
  | _ => s
def execAcquireRetry (core : Nat) (s : State) : Host.Outcome State Fault Refusal := .next (actAcquireRetry core s)

/-! ### Crest contexts (R269) -/

/-- CREST_CONTRIBUTION. -/
def actCrestContribution (n : Nat) (s : State) : State :=
  match packetAt s n with
  | some (.crest core scope ctx w mag nan inf) => contributeAt core scope ctx w (mag, nan, inf) (takePacket n s)
  | _ => s
def execCrestContribution (n : Nat) (s : State) : Host.Outcome State Fault Refusal := .next (actCrestContribution n s)

/-- CRSC_LANDING: the release lands, and a CREST or BAR that waits for it retires. -/
def actCrscLanding (n : Nat) (s : State) : State :=
  match packetAt s n with
  | some (.crsc core scope ctx scale nf) =>
    onCore core (fun s =>
      let s := { s with core := s.core.land ctx scale nf }
      if s.core.waiting = some (.crest scope ctx) then endWait true s else s) (takePacket n s)
  | _ => s
def execCrscLanding (n : Nat) (s : State) : Host.Outcome State Fault Refusal := .next (actCrscLanding n s)

end Sys2Proof.Machine
end

