-- ==== Sys2Proof/Machine/Csr.lean ====
section
/-!
DEFINITION. Control registers (R52 to R55, R153, R154): their values, their writable bits, and what a write does.
-/

namespace Sys2Proof.Machine

/-- 1 or 0 at a bit. -/
def at_ (b : Bool) (k : Nat) : Nat := if b then 2 ^ k else 0

/-- The registers of R54 that exist. -/
def csrExists (x : Nat) : Bool :=
  [0x000, 0x001, 0x002, 0x003, 0x004, 0x008, 0x009, 0x00A, 0x010, 0x011, 0x018, 0x019, 0x020, 0x028, 0x029, 0x02A, 0x02B, 0x030, 0x038,
    0x040, 0x048, 0x050, 0x058, 0x059, 0x05A, 0x05B, 0x05C, 0x05D, 0x05E, 0x05F, 0x060, 0x070, 0x071].contains x

/-- The registers marked RO, and the one marked WO. -/
def csrReadOnly (x : Nat) : Bool :=
  [0x000, 0x001, 0x018, 0x020, 0x030, 0x048, 0x050, 0x058, 0x059, 0x05A, 0x05B, 0x05C, 0x05D, 0x05E, 0x05F, 0x071].contains x
def csrWriteOnly (x : Nat) : Bool := x = 0x00A

/-- The registers that vector and matrix instructions write: CREG and MFL (R55). -/
def csrOfUnits (x : Nat) : Bool := x = 0x010 || x = 0x038

/-- QSTn (R55). -/
def qstWord (q : CopyQueue) : Nat :=
  q.ops.length % 32 + at_ q.stop 7 + q.reason.toNat * 2 ^ 8 + q.chunk.toNat * 2 ^ 16 + q.miss.toNat * 2 ^ 48

/-- REPST (R55). -/
def repstWord (r : Rep) : Nat :=
  r.cap.length % 64 + r.state.toNat * 2 ^ 6 + (r.count - r.iter) % 2 ^ 16 * 2 ^ 16 + r.base % 32 * 2 ^ 32 + r.size % 64 * 2 ^ 37 +
    r.stag % 32 * 2 ^ 43

/-- REGST (R55). -/
def regstWord (c : Core) : Nat :=
  uncommitted c % 512 + c.outbox.length % 32 * 2 ^ 12 + c.aborts.toNat * 2 ^ 32 + c.surr.toNat * 2 ^ 48

/-- BINDn (R55). -/
def bindWord (x : Slot) : Nat := if x.valid then x.cairn.toNat % 2 ^ 63 + 2 ^ 63 else 0

/-- The value of a control register of core k. -/
def csrRead (s : State) (k x : Nat) : Word :=
  let c := s.coreAt k
  match x with
  | 0x000 => s.pkg.cyc
  | 0x001 => BitVec.ofNat 64 k
  | 0x002 => c.lidx
  | 0x003 => BitVec.ofNat 64 (at_ c.clsLat 0 + c.clsOrigin.toNat * 2 + at_ c.clsFill 8)
  | 0x004 => c.sguard.setWidth 64
  | 0x008 => c.fcsr.setWidth 64
  | 0x009 => c.seed
  | 0x010 => c.creg.setWidth 64
  | 0x011 => BitVec.ofNat 64 (c.crscScale.toNat + at_ c.crscNf 8 + c.crscCtx.toNat * 2 ^ 12 + at_ c.crscValid 16)
  | 0x018 => c.rpc
  | 0x019 => BitVec.ofNat 64 (regstWord c)
  | 0x020 => c.ydl
  | 0x028 | 0x029 | 0x02A | 0x02B => BitVec.ofNat 64 (qstWord (c.queues.toList.getD (x - 0x028) CopyQueue.reset))
  | 0x030 => BitVec.ofNat 64 (repstWord c.rep)
  | 0x038 => c.mfl.setWidth 64
  | 0x040 => c.wnote.setWidth 64
  | 0x048 => BitVec.ofNat 64 (s.pkg.skipStep.toNat + at_ s.pkg.skipFlag 32)
  | 0x050 => BitVec.ofNat 64 (c.cvPos % 8 + c.cvSize % 16 * 16)
  | 0x058 | 0x059 | 0x05A | 0x05B | 0x05C | 0x05D | 0x05E | 0x05F => BitVec.ofNat 64 (bindWord (c.slot (x - 0x058)))
  | 0x060 => c.optH
  | 0x070 => BitVec.ofNat 64 (at_ c.trEn 0 + c.trSize.toNat * 16 + c.trObj.toNat * 2 ^ 40)
  | 0x071 => BitVec.ofNat 64 (c.trOff.toNat + at_ c.trErr 31 + c.trLaps.toNat * 2 ^ 32)
  | _ => 0

/-- The bits of a register that its map marks RW or WO (R54, R55). -/
def csrMask (x : Nat) : Word :=
  match x with
  | 0x002 => 0x7FFF_FFFF_FFFF_FFFF
  | 0x003 => 0x100
  | 0x004 => 0xFF
  | 0x008 => 0x7
  | 0x009 => 0xFFFF_FFFF_FFFF_FFFF
  | 0x00A => 0x1F
  | 0x010 => 0x3_FFFF_FFFF
  | 0x011 => 0x1_F1FF
  | 0x019 => 0xFFFF_FFFF_0000_0000
  | 0x028 | 0x029 | 0x02A | 0x02B => 0xFFFF_0000_0000_0080
  | 0x038 => 0xF
  | 0x040 => 0x1F
  | 0x060 => 0xFFFF_FFFF_FFFF_FFFF
  | 0x070 => 0x7FFF_FF00_0000_00F1
  | _ => 0

/-- A write to TRCTL (R431). -/
def writeTrctl (k : Nat) (v : Word) (s : State) : State :=
  let s := traceFlush k s
  let s := s.modCore k fun c =>
    { c with
      trEn := v.getLsbD 0
      trSize := v.extractLsb' 4 4
      trObj := v.extractLsb' 40 23
      trOff := 0
      trHeld := none
      trState := if c.act.isNone && c.cvPos = 0 then 0 else if c.isFrozen then 0 else 1 }
  if v.getLsbD 0 then traceSync k s.pkg.cyc (s.modCore k fun c => c.skipSamples s.pkg.cyc) else s

/-- A control register of core k set to a value whose RO bits are the old ones. -/
def csrWrite (k x : Nat) (v : Word) (s : State) : State :=
  match x with
  | 0x070 => writeTrctl k v s
  | _ =>
    s.modCore k fun c =>
      match x with
      | 0x002 => { c with lidx := v &&& csrMask 0x002 }
      | 0x003 => { c with clsFill := v.getLsbD 8 }
      | 0x004 => { c with sguard := v.extractLsb' 0 8 }
      | 0x008 => { c with fcsr := if 6 ≤ (v.extractLsb' 0 3).toNat then c.fcsr else v.extractLsb' 0 3 }
      | 0x009 => { c with seed := v }
      | 0x00A => { c with flags := c.flags.clear v }
      | 0x010 => { c with creg := v.extractLsb' 0 34 }
      | 0x011 =>
        { c with crscScale := v.extractLsb' 0 8, crscNf := v.getLsbD 8, crscCtx := v.extractLsb' 12 4, crscValid := v.getLsbD 16 }
      | 0x019 => { c with aborts := v.extractLsb' 32 16, surr := v.extractLsb' 48 16 }
      | 0x028 | 0x029 | 0x02A | 0x02B =>
        let q := c.queues.toList.getD (x - 0x028) CopyQueue.reset
        { c with queues := c.queues.setIfInBounds (x - 0x028) { q with stop := v.getLsbD 7, miss := v.extractLsb' 48 16 } }
      | 0x038 => { c with mfl := v.extractLsb' 0 4 }
      | 0x040 => { c with wnote := v.extractLsb' 0 5 }
      | 0x060 => { c with optH := v }
      | _ => c

end Sys2Proof.Machine
end

