-- ==== Sys2Proof/Machine/Regs.lean ====
section
/-!
DEFINITION. The registers of control space and the debug window (R275, R289, R346, R354, R380, R408 to R412, R416, R424, R426, R435 to
R441, R444): reads, which agent may write what, and what a write does.
-/

namespace Sys2Proof.Machine

/-- What a store to a register comes to: it is performed, it may not be made, or it waits. -/
inductive Verdict where
  | ok | forbidden | waits
  deriving DecidableEq, Repr

/-- The register set of an issuer: a mesa command core's, or the host's; none for any other core. -/
def unitOf (who : Option Nat) : Option Nat :=
  match who with
  | none => some 4
  | some k => if isCommand k then some (mesaOf k) else none

/-! ### Debug rights (R440) -/

/-- A right that nothing has written. -/
def Right.none : Right := ⟨false, 0, 0, 0, 0, 0, 0, 0, 0, 0, 0, Option.none⟩

/-- Right r. -/
def rightAt (s : State) (r : Nat) : Right := (assocGet s.pkg.rights r).getD Right.none

/-- Right r changed. -/
def modRight (r : Nat) (f : Right → Right) (s : State) : State :=
  s.modPkg fun p => { p with rights := assocSet p.rights r (f (rightAt s r)) }

/-- Word 0 of a right. -/
def rightWord (x : Right) : Nat :=
  at_ x.v 0 + x.perm.toNat * 2 + x.scope.toNat * 2 ^ 6 + x.gen.toNat * 2 ^ 16 + x.first.toNat * 2 ^ 32 + x.count.toNat * 2 ^ 44

/-- DRREV (R440): GEN advances and V clears. -/
def actDrrev (n : Nat) (s : State) : State := modRight (n % 1024) (fun x => { x with gen := x.gen + 1, v := false }) s
def execDrrev (n : Nat) (s : State) : Host.Outcome State Fault Refusal := .next (actDrrev n s)

/-! ### Control space, read -/

/-- A commander's registers by offset. -/
def commanderRead (c : Commander) (off : Nat) : Nat :=
  match off with
  | 0x2_0008 => c.sdobj.toNat
  | 0x2_0010 => c.sdoff.toNat
  | 0x2_0018 => c.sdlen.toNat
  | 0x2_0028 => at_ c.sdbusy 0 + c.sdcount.toNat * 2 ^ 32
  | 0x3_0100 => c.pvlaunch.toNat
  | 0x3_0108 => c.pvcount.toNat
  | 0x3_0118 => at_ c.pvbusy 0 + c.pvvac.toNat * 2 ^ 16 + c.pvdone.toNat * 2 ^ 32
  | 0x4_0010 => at_ c.xtbusy 0 + c.xtcount.toNat * 2 ^ 32
  | _ => 0

/-- The package's own registers by offset. -/
def packageRead (s : State) (off : Nat) : Nat :=
  let p := s.pkg
  match off with
  | 0x2_0000 => p.otbase.toNat
  | 0x4_0000 => p.xtbase.toNat
  | 0x5_0000 => at_ p.pgEn 0 + p.pgFdiv.toNat * 2 ^ 8
  | 0x5_0008 => p.pgUp.toNat
  | 0x5_0010 => p.pgDn.toNat
  | 0x5_0018 => p.pgBal.toNat
  | 0x5_0020 => p.pgPower / 1000 % 2 ^ 16 + p.pgDemand.toNat * 2 ^ 16 + p.pgMode.toNat * 2 ^ 32
  | 0x5_0028 => p.pgEne / 10 ^ 6
  | 0x5_0100 => p.skipStep.toNat + at_ p.skipFlag 32
  | 0x5_0208 => p.esnapE.toNat
  | 0x5_0210 => p.esnapT.toNat
  | 0x5_0218 => p.esnapN.toNat
  | 0x5_0300 => p.errwin.toNat
  | 0x5_0308 => p.errthr.toNat
  | 0x7_0000 => p.hqbase.toNat
  | 0x7_0008 => p.hqsize.toNat
  | 0x7_0010 => p.hqhead.toNat
  | 0x7_0018 => p.hqtail.toNat
  | 0x7_0020 => at_ p.hqen 0
  | 0x7_0028 => p.hwbase.toNat
  | 0x7_0030 => p.bfpage.toNat + at_ p.bfbias 63
  | 0x7_0040 => at_ p.bfbusy 0 + p.bfcount.toNat * 2 ^ 32
  | 0x7_0048 => p.hmstat.toNat
  | 0x7_0050 => at_ p.pkfrz 0
  | 0x7_0058 => 16 - p.hostMsgs.length
  | 0x7_0060 => at_ p.bootReady 0 + p.bootStage.toNat * 2 + p.bootErr.toNat * 2 ^ 8
  | 0x7_1080 => p.pkgid.toNat
  | _ => 0

/-- A cluster's registers, by offset in its block (R444). -/
def clusterRead (c : Cluster) (off : Nat) : Nat :=
  match off with
  | 0x000 => c.ywin.toNat
  | 0x008 => c.defsteal.toNat
  | _ => 0

/-- A core's Erg message registers (R426). -/
def ergRead (c : Core) (off : Nat) : Nat :=
  match off with
  | 0x7_2000 => c.emdst.toNat
  | 0x7_2008 => c.emsrc.toNat
  | 0x7_2018 => c.emstat.toNat
  | _ => 0

/-- An aperture page's registers (R440). -/
def apertureRead (x : Right) (off : Nat) : Nat :=
  match off with
  | 0x00 => x.drqAddr.toNat
  | 0x08 => x.drqGen.toNat
  | 0x10 => x.drqData.toNat
  | 0x20 => at_ x.busy.isSome 0 + x.res.toNat * 2 ^ 4 + x.done.toNat * 2 ^ 32
  | _ => 0

/-- A cluster register block reached by an issuer (R444). -/
def reachesBlock (who : Option Nat) (g : Nat) : Bool :=
  match who with
  | none => true
  | some k => isCommand k && g / 48 = mesaOf k

/-- The doubleword at an 8-aligned offset of control space, as an issuer reads it. Three reads that the rules leave open give 0: of the
block of a cluster that the issuer does not reach, of SDOBJ to SDSTAT, PVLAUNCH, PVCOUNT, PVSTAT and XTSTAT by a core that is no command
core, and of a write-only register. DESIGN CHOICE (log 40). -/
def controlRead (s : State) (who : Option Nat) (off : Nat) : Word :=
  BitVec.ofNat 64 <|
    if 0x6_0000 ≤ off && off < 0x7_0000 then capWord s off
    else if 0x7_2000 ≤ off && off < 0x7_2020 then (match who with | some k => ergRead (s.coreAt k) off | none => 0)
    else if 0x7_4000 ≤ off && off < 0x7_8000 then (if off % 16 = 0 then rightWord (rightAt s ((off - 0x7_4000) / 16)) else 0)
    else if 0x40_0000 ≤ off && off < 0x80_0000 then apertureRead (rightAt s ((off - 0x40_0000) / 4096)) (off % 4096)
    else if 0xA0_0000 ≤ off && off < 0xA0_0000 + 0x1000 * 192 then
      (if reachesBlock who ((off - 0xA0_0000) / 0x1000) then clusterRead (s.clusterAt ((off - 0xA0_0000) / 0x1000)) (off % 0x1000) else 0)
    else if off = 0x3_0000 || off = 0x3_0008 then
      (match who with | some k => clusterRead (s.clusterAt (clusterOf k)) (off % 0x1000) | none => 0)
    else if [0x2_0008, 0x2_0010, 0x2_0018, 0x2_0028, 0x3_0100, 0x3_0108, 0x3_0118, 0x4_0010].contains off then
      (match unitOf who with | some u => commanderRead (s.commander u) off | none => 0)
    else packageRead s off

/-- A word of a requeue record. -/
def requeueWord (r : TaskRecord) (off : Nat) : Word :=
  match off with
  | 0x100 => r.w0
  | 0x108 => r.w1
  | 0x110 => r.w2
  | _ => r.w3

/-- What the register at an offset holds, into which a store of part of it is merged: of the words of a requeue record, which read 0, the
record (R288, R289, R444). -/
def controlHeld (s : State) (who : Option Nat) (off : Nat) : Word :=
  if 0x2_0100 ≤ off && off < 0x2_0120 then
    (match who with | some k => requeueWord (s.clusterAt (clusterOf k)).rqrec (off % 0x1000) | none => 0)
  else if 0xA0_0000 ≤ off && off < 0xA0_0000 + 0x1000 * 192 && 0x100 ≤ off % 0x1000 && off % 0x1000 < 0x120 then
    requeueWord (s.clusterAt ((off - 0xA0_0000) / 0x1000)).rqrec (off % 0x1000)
  else controlRead s who off

/-! ### Control space, written -/

/-- The places of the capability area that hold something: the list, the bitmap, the report and the nonce (R412). -/
def capOccupied (off : Nat) : Bool :=
  (0x6_0000 ≤ off && off < 0x6_0000 + 16 * 6) || (bitmapAt ≤ off && off < bitmapAt + 384) ||
    (reportAt ≤ off && off < reportAt + 0x1000) || (nonceAt ≤ off && off < nonceAt + 32)

/-- The offset lies in an aperture page's registers; the rest of a page holds none (R440). -/
def apertureOccupied (off : Nat) : Bool := 0x40_0000 ≤ off && off < 0x80_0000 && off % 4096 ≤ 0x20

/-- Offsets of registers marked RO. -/
def controlReadOnly (off : Nat) : Bool :=
  [0x2_0028, 0x3_0118, 0x4_0010, 0x5_0020, 0x5_0028, 0x5_0208, 0x5_0210, 0x5_0218, 0x7_0018, 0x7_0040, 0x7_0048, 0x7_0050, 0x7_0058,
    0x7_0060, 0x7_1080, 0x7_2018].contains off || (capOccupied off && !(nonceAt ≤ off && off < nonceAt + 32)) ||
    (apertureOccupied off && off % 4096 = 0x20)

/-- A cluster register block's write: RQGO waits while the member's deque is full (R288), but for a DROP, which pushes nothing. DESIGN CHOICE
(log 43). -/
def clusterVerdict (s : State) (g off : Nat) (v : Word) : Verdict :=
  if off = 0x120 && !v.getLsbD 16 && !dequeTakes s (rqCore g v) then .waits else .ok

/-- Whether an issuer may store to an offset, and whether the store waits. A store to an offset that no register occupies may be made:
it changes nothing (R275). -/
def controlVerdict (s : State) (who : Option Nat) (off : Nat) (v : Word) : Verdict :=
  let commander (busy : Commander → Bool) : Verdict :=
    match unitOf who with
    | some u => if busy (s.commander u) then .waits else .ok
    | none => .forbidden
  let host : Verdict := if who.isNone then .ok else .forbidden
  let command : Verdict := match who with
    | some k => if isCommand k then .ok else .forbidden
    | none => .forbidden
  let own : Verdict := match who with
    | some k => if isSupervisor k then clusterVerdict s (clusterOf k) (off % 0x1000) v else .forbidden
    | none => .forbidden
  if controlReadOnly off then .forbidden
  else if off = 0x2_0000 || off = 0x4_0000 then command
  else if off = 0x2_0020 then commander (·.sdbusy)
  else if off = 0x3_0110 then commander (·.pvbusy)
  else if off = 0x4_0008 then commander (·.xtbusy)
  else if [0x2_0008, 0x2_0010, 0x2_0018, 0x3_0100, 0x3_0108, 0x5_0000, 0x5_0008, 0x5_0010, 0x5_0018].contains off then
    commander fun _ => false
  else if (0x2_0100 ≤ off && off < 0x2_0128) || off = 0x3_0000 || off = 0x3_0008 then own
  else if off = 0x7_0038 then (if who.isNone then (if s.pkg.bfbusy then .waits else .ok) else .forbidden)
  else if off = 0x5_0100 || (0x7_0000 ≤ off && off < 0x7_0068) || (0x7_4000 ≤ off && off < 0x7_8000) ||
      (0x8_0000 ≤ off && off < 0x9_0080 && (off < 0x8_0400 || 0x9_0000 ≤ off)) || apertureOccupied off ||
      (nonceAt ≤ off && off < nonceAt + 32) then host
  else if 0x7_2000 ≤ off && off < 0x7_2020 then (if who.isSome then .ok else .forbidden)
  else if 0xA0_0000 ≤ off && off < 0xA0_0000 + 0x1000 * 192 then
    (if reachesBlock who ((off - 0xA0_0000) / 0x1000) then clusterVerdict s ((off - 0xA0_0000) / 0x1000) (off % 0x1000) v else .forbidden)
  else .ok

/-- A commander's register written. -/
def commanderWrite (u off : Nat) (v : Word) (s : State) : State :=
  match off with
  | 0x2_0020 => actSdgo u v s
  | 0x3_0110 => actPvgo u v s
  | 0x4_0008 => actXtinv u v s
  | _ => s.modCommander u fun c =>
    match off with
    | 0x2_0008 => { c with sdobj := v.extractLsb' 0 23 }
    | 0x2_0010 => { c with sdoff := v.extractLsb' 0 40 }
    | 0x2_0018 => { c with sdlen := v.extractLsb' 0 41 }
    | 0x3_0100 => { c with pvlaunch := v.extractLsb' 0 6 }
    | 0x3_0108 => { c with pvcount := v.extractLsb' 0 12 }
    | _ => c

/-- A cluster's register written, by offset in its block. -/
def clusterWrite (g off : Nat) (v : Word) (s : State) : State :=
  match off with
  | 0x120 => storeRqgo g v s
  | _ => s.modCluster g fun c =>
    match off with
    | 0x000 => { c with ywin := v.extractLsb' 0 16 }
    | 0x008 => { c with defsteal := v.extractLsb' 0 2 }
    | 0x100 => { c with rqrec := { c.rqrec with w0 := v } }
    | 0x108 => { c with rqrec := { c.rqrec with w1 := v } }
    | 0x110 => { c with rqrec := { c.rqrec with w2 := v } }
    | 0x118 => { c with rqrec := { c.rqrec with w3 := v } }
    | _ => c

/-- A package register written. Clearing EN leaves the governor's mode TRACK (R408). -/
def packageWrite (off : Nat) (v : Word) (s : State) : State :=
  match off with
  | 0x5_0100 => writeSkipf v s
  | 0x5_0200 => snapEnergy s
  | 0x7_0038 => startFlip s
  | _ => s.modPkg fun p =>
    match off with
    | 0x2_0000 => { p with otbase := v.extractLsb' 29 27 ++ 0#29 }
    | 0x4_0000 => { p with xtbase := v.extractLsb' 26 30 ++ 0#26 }
    | 0x5_0000 => { p with pgEn := v.getLsbD 0, pgFdiv := v.extractLsb' 8 8, pgMode := if v.getLsbD 0 then p.pgMode else 0 }
    | 0x5_0008 => { p with pgUp := v.extractLsb' 0 16 }
    | 0x5_0010 => { p with pgDn := v.extractLsb' 0 16 }
    | 0x5_0018 => { p with pgBal := v.extractLsb' 0 16 }
    | 0x5_0300 => { p with errwin := v }
    | 0x5_0308 => { p with errthr := v }
    | 0x7_0000 => { p with hqbase := v &&& ~~~ 63#64 }
    | 0x7_0008 => { p with hqsize := v.extractLsb' 0 5 }
    | 0x7_0010 => { p with hqhead := v.extractLsb' 0 32 }
    | 0x7_0020 => { p with hqen := v.getLsbD 0 }
    | 0x7_0028 => { p with hwbase := v &&& ~~~ 0xFFF#64 }
    | 0x7_0030 => { p with bfpage := v.extractLsb' 0 28, bfbias := v.getLsbD 63 }
    | _ => p

/-- An aperture page's register written (R440). -/
def apertureWrite (r off : Nat) (v : Word) (s : State) : State :=
  modRight r (fun x =>
    match off with
    | 0x00 => { x with drqAddr := v.extractLsb' 0 36 }
    | 0x08 => { x with drqGen := v }
    | 0x10 => { x with drqData := v }
    | 0x18 => if v = 1 then { x with busy := some 1 } else if v = 2 then { x with busy := some 2 } else x
    | _ => x) s

/-- A right's word 0 written; GEN stays. -/
def rightWrite (r : Nat) (v : Word) (s : State) : State :=
  modRight r (fun x =>
    { x with v := v.getLsbD 0, perm := v.extractLsb' 1 4, scope := v.extractLsb' 6 2, first := v.extractLsb' 32 12,
             count := v.extractLsb' 44 12 }) s

/-- The nonce with 8 of its bytes replaced. -/
def nonceWrite (at8 : Nat) (v : Word) (s : State) : State :=
  s.modPkg fun p =>
    let old := padded 32 p.nonce
    { p with nonce := old.take at8 ++ leBytes 8 v.toNat ++ old.drop (at8 + 8) }

/-- A store to control space that may be made, of a whole doubleword. EMGO is the act of `emgo`. -/
def controlWrite (who : Option Nat) (off : Nat) (v : Word) (s : State) : State :=
  if nonceAt ≤ off && off < nonceAt + 32 then nonceWrite (off - nonceAt) v s
  else if off = 0x7_2000 || off = 0x7_2008 then
    match who with
    | some k => s.modCore k fun c => if off = 0x7_2000 then { c with emdst := v &&& 0x7_FFFF_FFFF#64 } else { c with emsrc := v }
    | none => s
  else if 0x7_4000 ≤ off && off < 0x7_8000 then
    let r := (off - 0x7_4000) / 16
    if off % 16 = 0 then rightWrite r v s else actDrrev r s
  else if 0x40_0000 ≤ off && off < 0x80_0000 then apertureWrite ((off - 0x40_0000) / 4096) (off % 4096) v s
  else if 0xA0_0000 ≤ off && off < 0xA0_0000 + 0x1000 * 192 then clusterWrite ((off - 0xA0_0000) / 0x1000) (off % 0x1000) v s
  else if off = 0x3_0000 || off = 0x3_0008 then
    match who with
    | some k => clusterWrite (clusterOf k) (off - 0x3_0000) v s
    | none => s
  else if 0x2_0100 ≤ off && off < 0x2_0128 then
    match who with
    | some k => clusterWrite (clusterOf k) (off - 0x2_0000) v s
    | none => s
  else if [0x2_0008, 0x2_0010, 0x2_0018, 0x2_0020, 0x3_0100, 0x3_0108, 0x3_0110, 0x4_0008].contains off then
    match unitOf who with
    | some u => commanderWrite u off v s
    | none => s
  else packageWrite off v s

/-! ### The debug window (R435 to R439) -/

/-- A word's low or high half, or lanes of a vector, as a doubleword of two. -/
def pairWord (lo hi : Lane) : Nat := lo.toNat + hi.toNat * 2 ^ 32

/-- 64 bits of a mask. -/
def maskHalf (m : Mask) (h : Nat) : Nat := (m.extractLsb' (64 * h) 64).toNat
def setMaskHalf (m : Mask) (h : Nat) (v : Word) : Mask :=
  if h = 0 then (m.extractLsb' 64 64) ++ v else v ++ (m.extractLsb' 0 64)

/-- A flag set by number, and one replaced. -/
def FlagSets.get (f : FlagSets) (n : Nat) : Mask :=
  match n with
  | 0 => f.nv
  | 1 => f.dz
  | 2 => f.of
  | 3 => f.uf
  | _ => f.nx
def FlagSets.set (f : FlagSets) (n : Nat) (m : Mask) : FlagSets :=
  match n with
  | 0 => { f with nv := m }
  | 1 => { f with dz := m }
  | 2 => { f with of := m }
  | 3 => { f with uf := m }
  | _ => { f with nx := m }

/-- DSTAT (R436). -/
def dstatWord (c : Core) : Nat :=
  at_ c.isFrozen 0 + at_ (c.phase = .stopped) 1 + at_ c.act.isSome 2 + at_ c.stopReq 3 + at_ c.vac 4 + c.dstatErr.toNat * 2 ^ 8

/-- The width of a tile's elements in memory. -/
def tileWidth (c : Core) (n : Nat) : Nat := if c.tf.toList.getD n 0 = 1#2 then 8 else 4

/-- A tile's cells. -/
def Core.tile (c : Core) (n : Nat) : Tile := c.tiles.toList.getD n (Vector.replicate 1024 0)

/-- The doubleword at an 8-aligned byte of a tile. -/
def tileRead (c : Core) (n byte : Nat) : Nat :=
  let t := (c.tile n).toList
  if tileWidth c n = 8 then (t.getD (byte / 8) 0).toNat
  else (t.getD (byte / 4) 0).toNat % 2 ^ 32 + (t.getD (byte / 4 + 1) 0).toNat % 2 ^ 32 * 2 ^ 32

/-- It written. -/
def tileWrite (c : Core) (n byte : Nat) (v : Word) : Core :=
  let t := c.tile n
  let t' := if tileWidth c n = 8 then t.setIfInBounds (byte / 8) v
    else (t.setIfInBounds (byte / 4) (v &&& 0xFFFF_FFFF#64)).setIfInBounds (byte / 4 + 1) (v >>> 32)
  { c with tiles := c.tiles.setIfInBounds n t' }

/-- The kinds of place in a core block beyond the scratchpad. -/
inductive Spot where
  | sreg (k : Nat)
  | sfull
  | vfull
  | lanes (k i : Nat)
  | mask (k half : Nat)
  | flag (k half : Nat)
  | mcfgm
  | mcfgs
  | csr (x : Nat)
  | pc
  | cmd
  | dstat
  | smpint
  | bppc (n : Nat)
  | bptag (n : Nat)
  | dqTop
  | dqBot
  | park (n : Nat)
  | parkNo
  | tile (n byte : Nat)
  | none
  deriving DecidableEq, Repr

/-- The place at an 8-aligned offset of a core block (R436). -/
def spotAt (off : Nat) : Spot :=
  if 0x10_0000 ≤ off && off < 0x10_0100 then .sreg ((off - 0x10_0000) / 8)
  else if off = 0x10_0100 then .sfull
  else if off = 0x10_0108 then .vfull
  else if 0x10_1000 ≤ off && off < 0x10_5000 then .lanes ((off - 0x10_1000) / 512) (off % 512 / 4)
  else if 0x10_5000 ≤ off && off < 0x10_5080 then .mask ((off - 0x10_5000) / 16) (off % 16 / 8)
  else if 0x10_5080 ≤ off && off < 0x10_50D0 then .flag ((off - 0x10_5080) / 16) (off % 16 / 8)
  else if off = 0x10_6000 then .mcfgm
  else if off = 0x10_6008 then .mcfgs
  else if 0x10_7000 ≤ off && off < 0x10_F000 then .csr ((off - 0x10_7000) / 8)
  else if off = 0x10_F000 then .pc
  else if off = 0x10_F008 then .cmd
  else if off = 0x10_F010 then .dstat
  else if off = 0x10_F018 then .smpint
  else if off = 0x10_F020 || off = 0x10_F028 then .bppc ((off - 0x10_F020) / 8)
  else if off = 0x10_F030 || off = 0x10_F038 then .bptag ((off - 0x10_F030) / 8)
  else if off = 0x10_F040 then .dqTop
  else if off = 0x10_F048 then .dqBot
  else if 0x10_F060 ≤ off && off < 0x10_F080 then .park ((off - 0x10_F060) / 8)
  else if off = 0x10_F080 then .parkNo
  else if 0x11_0000 ≤ off && off < 0x12_0000 then .tile ((off - 0x11_0000) / 8192) (off % 8192)
  else .none

/-- The doubleword at a place of core k. -/
def spotRead (s : State) (k : Nat) (x : Spot) : Nat :=
  let c := s.coreAt k
  match x with
  | .sreg n => (c.s n).toNat
  | .sfull => c.sfull.toNat
  | .vfull => c.vfull.toNat
  | .lanes r i => pairWord ((c.v r).toList.getD i 0) ((c.v r).toList.getD (i + 1) 0)
  | .mask n h => maskHalf (maskOf c n) h
  | .flag n h => maskHalf (c.flags.get n) h
  | .mcfgm => c.tf.toList.zipIdx.foldl (fun a x => a + x.1.toNat * 2 ^ (2 * x.2)) 0 + at_ c.isat 16
  | .mcfgs => pairWord c.sa c.sb
  | .csr x => if csrWriteOnly x then 0 else (csrRead s k x).toNat
  | .pc => c.pc.toNat
  | .cmd => 0
  | .dstat => dstatWord c
  | .smpint => c.smpint.toNat
  | .bppc n => (c.bppc.toList.getD n 0).toNat
  | .bptag n => (c.bptag.toList.getD n 0).toNat
  | .dqTop => c.dqTop % 2 ^ 32
  | .dqBot => c.dqBot % 2 ^ 32
  | .park 0 => c.parkRec.w0.toNat
  | .park 1 => c.parkRec.w1.toNat
  | .park 2 => c.parkRec.w2.toNat
  | .park _ => c.parkRec.w3.toNat
  | .parkNo => c.parkNo.toNat
  | .tile n b => if b < 1024 * tileWidth c n then tileRead c n b else 0
  | .none => 0

/-- A place that stores may not reach: marked RO (R435). -/
def spotForbidden (x : Spot) : Bool :=
  match x with
  | .mask 0 _ | .dqTop | .dqBot | .park _ | .parkNo => true
  | .csr x => csrReadOnly x && x ≠ 0 && x ≠ 0x018
  | _ => false

/-- A place whose stores need the core frozen or stopped (R437). -/
def spotNeedsFreeze (x : Spot) : Bool :=
  match x with
  | .sreg _ | .sfull | .vfull | .lanes _ _ | .mask _ _ | .flag _ _ | .mcfgs | .csr _ | .pc | .tile _ _ => true
  | _ => false

/-- A control register written through the window: RPC too, CYC not (R436). FCSR is written for the sequence too, if one has stopped
with the core. A store at FLCLR's place clears nothing: only the core's own CSRW to it does (R36). -/
def windowCsr (k x : Nat) (v : Word) (s : State) : State :=
  if x = 0x00A then s
  else if x = 0x018 then s.modCore k fun c => { c with rpc := v &&& ~~~ 1#64 }
  else
    let s := csrWrite k x ((csrRead s k x &&& ~~~ csrMask x) ||| (v &&& csrMask x)) s
    if x = 0x008 then s.modCore k fun c => { c with rep := { c.rep with fcsr := c.fcsr } } else s

/-- The PC of a frozen core written: its instruction's wait is given up, and the next executes anew (R78). -/
def windowPc (k : Nat) (v : Word) (s : State) : State :=
  (onCore k dropWait s).modCore k fun c => { c.settled with pc := v &&& ~~~ 1#64 }

/-- A place that a core block's table lists for core k: a control register that exists and may be written there, a byte within its
tile. A store elsewhere is ignored (R435, R436). -/
def spotListed (s : State) (k : Nat) (x : Spot) : Bool :=
  match x with
  | .csr n => csrExists n && n ≠ 0
  | .tile n b => b < 1024 * tileWidth (s.coreAt k) n
  | .none => false
  | _ => true

/-- A doubleword written at a place of core k that the store may reach. -/
def spotWrite (k : Nat) (x : Spot) (v : Word) (s : State) : State :=
  if !spotListed s k x then s
  else if spotNeedsFreeze x && !(s.coreAt k).isFrozen then refuseCommand k 1 s
  else
    match x with
    | .mcfgm => actMcfgmWrite k v s
    | .csr n => windowCsr k n v s
    | .pc => windowPc k v s
    | .cmd => command k v s
    | .dstat => actDstatWrite k v s
    | x => s.modCore k fun c =>
      match x with
      | .sreg n => c.setS n v
      | .sfull => { c with sfull := v.extractLsb' 0 32 ||| 1 }
      | .vfull => { c with vfull := v.extractLsb' 0 32 }
      | .lanes r i =>
        let w := ((c.v r).setIfInBounds i (v.extractLsb' 0 32)).setIfInBounds (i + 1) (v.extractLsb' 32 32)
        { c with vregs := c.vregs.setIfInBounds r w, vfull := bitSet c.vfull r }
      | .mask n h => { c with masks := c.masks.setIfInBounds n (setMaskHalf (maskOf c n) h v) }
      | .flag n h => { c with flags := c.flags.set n (setMaskHalf (c.flags.get n) h v) }
      | .mcfgs => { c with sa := v.extractLsb' 0 32, sb := v.extractLsb' 32 32 }
      | .smpint => { c with smpint := v.extractLsb' 0 32, smpFrom := s.pkg.cyc }
      | .bppc n => { c with bppc := c.bppc.setIfInBounds n v }
      | .bptag n => { c with bptag := c.bptag.setIfInBounds n (v.extractLsb' 0 10) }
      | .tile n b => tileWrite c n b v
      | _ => c

/-- A launch's place in the package block (R438): the launch with the number, and the offset in its window. -/
def launchRead (s : State) (number off : Nat) : Nat :=
  match s.pkg.launches.find? (·.number = number) with
  | none => 0
  | some l =>
    if off < 0x40 then recWord l.record off
    else if off = 0x40 then 1 + l.members % 2 ^ 12 * 2
    else if 0x100 ≤ off then
      match l.slots[(off - 0x100) / 32]? with
      | none => 0
      | some x =>
        match off % 32 with
        | 0 => x.core
        | 8 => x.next
        | 16 => (BitVec.ofInt 64 x.last).toNat
        | _ => 0
    else 0

/-- The doubleword at an offset of a unit block (R438, R439). -/
def unitRead (s : State) (core scope off : Nat) : Nat :=
  if off < 512 then
    let x := crestAt s core scope (off / 32)
    match off % 32 with
    | 0 => at_ x.isOpen 0 + x.count % 2 ^ 12 * 2
    | 8 => x.param.toNat
    | 16 => x.mag.toNat + at_ x.nan 32 + at_ x.inf 33
    | _ => 0
  else if scope ≠ 2 then 0
  else if 0x1000 ≤ off && off < 0x1040 then
    let b := s.pkg.lbreaks.toList.getD ((off - 0x1000) / 16) ⟨0, 0⟩
    if off % 16 = 0 then b.lbp.toNat else b.lbq.toNat
  else if off = 0x1040 then (List.range 16).foldl (fun n q => n + at_ (launchQueue s q).held q) 0
  else if 0x80_0000 ≤ off then launchRead s ((off - 0x80_0000) / 0x2_0000) (off % 0x2_0000)
  else 0

/-- Offsets of a unit block marked RO. -/
def unitForbidden (scope off : Nat) : Bool :=
  (off < 512 && off % 32 < 24) || (scope = 2 && (off = 0x1040 || (0x80_0000 ≤ off && (off % 0x2_0000 < 0x48 || (0x100 ≤ off % 0x2_0000 && off % 32 < 24)))))

/-- A doubleword written at an offset of a unit block. -/
def unitWrite (target scope off : Nat) (v : Word) (s : State) : State :=
  if off < 512 then (if off % 32 = 24 then actCxcancel (target * 2 ^ 24 + off) v s else s)
  else if scope ≠ 2 then s
  else if 0x1000 ≤ off && off < 0x1040 then
    let n := (off - 0x1000) / 16
    s.modPkg fun p =>
      let b := p.lbreaks.toList.getD n ⟨0, 0⟩
      let b' : LaunchBreak := if off % 16 = 0 then { b with lbp := v } else { b with lbq := v.extractLsb' 0 18 }
      { p with lbreaks := p.lbreaks.setIfInBounds n b' }
  else if off = 0x1048 then storeLbgo v s
  else s

/-- The doubleword at an 8-aligned window address outside the scratchpads. -/
def debugRead (s : State) (w : Nat) : Word :=
  let target := w / 2 ^ 24
  let off := w % 2 ^ 24
  BitVec.ofNat 64 <|
    if target < 0xC00 then spotRead s target (spotAt off)
    else
      match unitScope target with
      | some (core, scope) => unitRead s core scope off
      | none => 0

/-- A store to a window address may not be made. -/
def debugForbidden (w : Nat) : Bool :=
  let target := w / 2 ^ 24
  let off := w % 2 ^ 24
  if target < 0xC00 then spotForbidden (spotAt off)
  else
    match unitScope target with
    | some (_, scope) => unitForbidden scope off
    | none => false

/-- A doubleword written at a window address that the store may reach. -/
def debugWrite (w : Nat) (v : Word) (s : State) : State :=
  let target := w / 2 ^ 24
  let off := w % 2 ^ 24
  if target < 0xC00 then spotWrite target (spotAt off) v s
  else
    match unitScope target with
    | some (_, scope) => unitWrite target scope off v s
    | none => s

/-! ### Host accesses and delegated ones (R415, R435, R441) -/

/-- An 8-byte window store of the host's: a scratchpad byte run, or a location that is not RO. -/
def hostWindowStore (w : Nat) (v : Word) (s : State) : State :=
  let target := w / 2 ^ 24
  let off := w % 2 ^ 24
  if target < 0xC00 && off + 8 ≤ 2 ^ 20 then windowStored s target off 8 (physPutNat s (scratch s target off) 8 v.toNat)
  else if debugForbidden (w / 8 * 8) then s
  else debugWrite (w / 8 * 8) v s

/-- An 8-byte window load of the host's. -/
def hostWindowLoad (s : State) (w : Nat) : Word :=
  let target := w / 2 ^ 24
  let off := w % 2 ^ 24
  if target < 0xC00 && off + 8 ≤ 2 ^ 20 then physWord s (scratch s target off) else debugRead s (w / 8 * 8)

/-- The host's store to a register performed; one that must wait waits (R288, R289, R354, R380, R416). -/
def hostStore (addr v : Word) (s : State) : State :=
  if !addr.getLsbD 63 then s
  else if spaceOf addr = 6 then
    let off := restOf addr / 8 * 8
    match controlVerdict s none off v with
    | .ok => controlWrite none off v s
    | .waits => s.defer (.register addr v)
    | .forbidden => s
  else if spaceOf addr = 5 then hostWindowStore (restOf addr % 2 ^ 36) v s
  else s

/-- REGISTER_WRITE (R275, R415): the host's 8-byte store to a register, by its control-space or window address; behind one of its
stores that waits, it waits too. -/
def actRegisterWrite (addr v : Word) (s : State) : State := hostInTurn (.register addr v) (hostStore addr v) s
def execRegisterWrite (addr v : Word) (s : State) : Host.Outcome State Fault Refusal := .next (actRegisterWrite addr v s)

/-- A window target lies in a right's scope, its FIRST and COUNT in units of that scope: the package is number 0 (R435, R440). -/
def inScope (x : Right) (target : Nat) : Bool :=
  let inside (n : Nat) : Bool := x.first.toNat ≤ n && n < x.first.toNat + x.count.toNat
  match x.scope.toNat with
  | 0 => target < 0xC00 && inside target
  | 1 => (target < 0xC00 && inside (clusterOf target)) || (0xC00 ≤ target && target < 0xCC0 && inside (target - 0xC00))
  | 2 =>
    (target < 0xC00 && inside (mesaOf target)) || (0xC00 ≤ target && target < 0xCC0 && inside ((target - 0xC00) / 48)) ||
      (0xD00 ≤ target && target < 0xD04 && inside (target - 0xD00))
  | _ => inside 0 && (target < 0xCC0 || (0xD00 ≤ target && target < 0xD04) || target = 0xE00)

/-- The permission of R441 that an access needs: 0 read, 1 write, 2 command, 3 launch breakpoints. -/
def neededRight (store : Bool) (w : Nat) : Nat :=
  let target := w / 2 ^ 24
  let off := w % 2 ^ 24 / 8 * 8
  if !store then 0
  else if target < 0xC00 then (if off = 0x10_F008 then 2 else 1)
  else if off < 512 && off % 32 = 24 then 2
  else if target = 0xE00 && ((0x1000 ≤ off && off < 0x1040) || off = 0x1048) then 3
  else 1

/-- RES of a request (R441). -/
def requestResult (x : Right) (store : Bool) : Nat :=
  let w := x.drqAddr.toNat
  if x.drqGen ≠ x.gen.setWidth 64 then 1
  else if !x.v then 2
  else if !inScope x (w / 2 ^ 24) then 3
  else if !x.perm.getLsbD (neededRight store w) then 4
  else 0

/-- A request answered. -/
def finishRequest (r res : Nat) (s : State) : State :=
  modRight r (fun x => { x with busy := none, res := BitVec.ofNat 4 res, done := x.done + 1 }) s

/-- DRQ_LOAD (R441): the request of right n. -/
def actDrqLoad (n : Nat) (s : State) : State :=
  let x := rightAt s n
  if x.busy ≠ some 1 then s
  else
    let res := requestResult x false
    let s := if res = 0 then modRight n (fun y => { y with drqData := hostWindowLoad s x.drqAddr.toNat }) s else s
    finishRequest n res s
def execDrqLoad (n : Nat) (s : State) : Host.Outcome State Fault Refusal := .next (actDrqLoad n s)

/-- DRQ_STORE (R441). -/
def actDrqStore (n : Nat) (s : State) : State :=
  let x := rightAt s n
  if x.busy ≠ some 2 then s
  else
    let res := requestResult x true
    finishRequest n res (if res = 0 then hostWindowStore x.drqAddr.toNat x.drqData s else s)
def execDrqStore (n : Nat) (s : State) : Host.Outcome State Fault Refusal := .next (actDrqStore n s)

end Sys2Proof.Machine
end

