-- ==== Sys2Proof/Machine/LoadStore.lean ====
section
/-!
DEFINITION. Loads, prefetches and stores of one scalar (R140 to R146, R275, R402, R426), control space and the debug window included.
-/

namespace Sys2Proof.Machine

/-! ### Addresses (R141) -/

/-- Width(size) in bytes (R93). -/
def widthOf (size : BitVec 3) : Nat := 2 ^ (size.toNat % 4)

/-- The effective address of an M-format access. -/
def effective (x : Word) (imm : BitVec 9) (w : Nat) : Word := x + imm.signExtend 64 * BitVec.ofNat 64 w

/-- Step 2 of R141. -/
def aligned (a : Word) (w : Nat) : Act Unit := require (decide (a.toNat % w = 0)) (.trap (trapAt 0x03 a))

/-- A value of w bytes extended to 64 bits. -/
def extended (signed : Bool) (w : Nat) (v : Nat) : Word :=
  if signed then (BitVec.ofNat (8 * w) v).signExtend 64 else BitVec.ofNat 64 v

/-- Loads of size B, H, W and D extend by sign (R142). -/
def signedSize (size : BitVec 3) : Bool := decide (size.toNat < 4)

/-! ### Registers as places (R275, R435) -/

/-- The part of a doubleword register that an access of n bytes at an offset names. -/
def registerPart (v : Word) (off n : Nat) : List Byte := ((leBytes 8 v.toNat).drop (off % 8)).take n

/-- A doubleword register with that part replaced. -/
def registerMerge (v : Word) (off : Nat) (bs : List Byte) : Word :=
  let old := leBytes 8 v.toNat
  BitVec.ofNat 64 (leValue (old.take (off % 8) ++ bs ++ old.drop (off % 8 + bs.length)))

/-- The bytes that a scalar load takes from its place, and whether it left the core. -/
def loadTarget (t : Target) (n hint : Nat) : Act (List Byte × Bool) :=
  match t with
  | .control off => askS fun s => (registerPart (controlRead s (some s.cid) (off / 8 * 8)) off n, true)
  | .debug w => askS fun s => (registerPart (debugRead s (w / 8 * 8)) w n, true)
  | t => readTarget t n hint

/-! ### EMGO (R426) -/

/-- The EMGO register. -/
def emgoAt : Nat := 0x7_2010

/-- The checks of a store to EMGO: the length and the bytes as SEND's, the destination, a place in the send buffer. -/
def emgoChecks : Act Unit := do
  let dst ← ask (·.emdst)
  let src ← ask (·.emsrc)
  require (1 ≤ emLen dst && emLen dst ≤ 64) (.trap (trapAt 0x04 src))
  let _ ← runTargets src (emLen dst)
  require (emPkg dst < 576 && emCore dst < 0xC00)
    (.trap { cause := 0x0F, addr := BitVec.ofNat 64 (emCore dst + emCh dst * 2 ^ 12) })
  require ((← ask fun c => c.emBuf.length) < 4) (.stall 0x35)

/-- The turn of EMGO's reads behind the core's own posted atomics, taken before the store commits (log 33). -/
def emgoTurn : Act Unit := do
  orderCommit (← ask (·.emsrc)) (emLen (← ask (·.emdst)))

/-- The message that EMDST and EMSRC describe placed in the send buffer. -/
def emgoSend : Act Unit := do
  emgoChecks
  let dst ← ask (·.emdst)
  let r ← readPieces (← ask (·.emsrc)) (emLen dst)
  changeS fun s => placeRemote s.cid ⟨emPkg dst, emCore dst, emCh dst, r.1, false, 0⟩ s

/-- A store to EMGO: a commit point. -/
def sendRemoteMessage : Act Unit := do
  emgoChecks
  emgoTurn
  commitPoint
  emgoSend
  retireCommit

/-- EMGO as a step of its own: the core whose store starts the message (R426). -/
def actEmgo (core : Nat) (_v : Word) (s : State) : State :=
  onCore core (fun s => if s.core.phase = .run then after sendRemoteMessage s else s) s
def execEmgo (core : Nat) (v : Word) (s : State) : Host.Outcome State Fault Refusal := .next (actEmgo core v s)

/-! ### Loads (R142, R145, R146) -/

/-- A scalar destination of a load that left the core: empty, with its value in flight (R49). -/
def Core.expect (c : Core) (d : Nat) (v : Word) : Core :=
  if d = 0 then c else { c.emptyS d with inflight := c.inflight ++ [⟨some (d, v), []⟩] }

/-- A scalar load of n bytes at a checked place: the value extended into d. -/
def loadInto (d : BitVec 5) (t : Target) (n hint : Nat) (signed : Bool) : Act Unit := do
  if t.commits then commitPoint
  let (bs, left) ← loadTarget t n hint
  let v := extended signed n (leValue bs)
  if t.commits then
    writeS d v
    retireCommit
  else
    if left then change fun c => c.expect d.toNat v else writeS d v
    retire

/-- LD (R142). -/
def actLd (o : MArgs) : Act Unit := do
  let x ← readS o.base o.t
  awaitS o.d
  let w := widthOf o.size
  let ea := effective x o.imm w
  aligned ea w
  let t ← target ea w .load .read o.hint.toNat
  loadInto o.d t w o.hint.toNat (signedSize o.size)
def execLd (o : MArgs) (s : State) : Host.Outcome State Fault Refusal := finish (actLd o) s

/-- The translation of a checked line: its own, or that of the line that serves the access (R283). -/
def xlatOf (a : Word) (x? : Option Xlat) : Act (Option Xlat) := do
  match x?, ← ask fun c => findLine c (blockAddr a) with
  | some x, _ => pure (some x)
  | none, some l => pure (some (← fillXlat a 1 l none))
  | none, none => pure none

/-- What a prefetch does that no check stops: the block into L1 and L2, or into L2 alone, where a line that L1 holds need not have a
filled sector (R63, R144). -/
def prefetchBlock (ea : Word) (w hint : Nat) : Act Unit := do
  if ea.getLsbD 63 || hint = 2 then pure ()
  else
    aligned ea w
    match ← objectTarget ea w .read 0 with
    | .line a x =>
      if hint = 0 then
        let _ ← loadBlock a x (BitVec.allOnes 64) false 0
      match ← xlatOf a x with
      | some x =>
        let _ ← missBlock a x (← ask fun c => xlatSlot c x)
      | none => pure ()
    | _ => pure ()

/-- The unit of this package that has met an uncorrectable error in a block, as R420 numbers it; none for memory that is not the
package's own. -/
def eccUnit (s : State) (blk : Nat) : List (Nat × Nat) :=
  if packageOf blk = s.pkg.pkgid.toNat && kindOf blk = 0 then [(2, globalCore blk)] else []

/-- The blocks with an uncorrectable error that the walk of an address reads, of those that it finds unreadable (R282). -/
def walkEcc (s : State) (a : Word) : List Nat :=
  if s.ecc.contains (entryAddr s (objId a)) then [entryAddr s (objId a)]
  else
    let e := readEntry s (objId a)
    let r := probes s e.extptr (objOff a) 17 0 (e.extcnt - 1)
    ((r.1 ++ [r.2]).map fun k => blockOf (e.extptr + 16 * k)).eraseDups.filter s.ecc.contains

/-- The block whose uncorrectable error refuses what an eviction takes home: a line's write-back, or a cairn's surrender (R301). -/
def refusingBlock (s : State) (t : Trap) : List Nat :=
  match t.lost with
  | some (k, a) => ((findLine (s.coreAt k) a).map (·.phys)).toList
  | none => ((cairnPhys s t.addr).map blockOf).toList

/-- The blocks with an uncorrectable error that a trap of a prefetch at an address tells of: those that its walk has read (R282), or that
refuses its eviction; a home that does not answer is none. -/
def spoilt (s : State) (a : Word) (t : Trap) : List Nat :=
  if t.cause = 0x06 && t.det1 = 5 then walkEcc s a
  else if t.cause = 0x0C && t.det1 = 0 then refusingBlock s t
  else []

/-- An act of a prefetch at an address, which has no effect where it would stop; an uncorrectable error that it, its walk or its eviction
finds counts as one that its channel has met (R144, R411). -/
def attempt (a : Word) (m : Act Unit) : Act Unit := fun s =>
  let met (blks : List Nat) : State := { s with corrections := s.corrections ++ blks.flatMap (eccUnit s) }
  match m s with
  | .ok r => .ok r
  | .error (.ecc blk _ _) => .ok ((), met [blk])
  | .error (.trap t) => .ok ((), met (spoilt s a t))
  | .error _ => .ok ((), s)

/-- A prefetch (R144): its base is waited for, and nothing else stops it. One with an illegal size or hint fails the illegal-code check,
and does nothing. DEDUCED (log 15). -/
def actPrefetch (o : MpArgs) : Act Unit := do
  let x ← readS o.base 0
  let w := widthOf o.size
  if (Legal.prefetch o).isNone then attempt (effective x o.imm w) (prefetchBlock (effective x o.imm w) w o.hint.toNat)
  retire
def execPrefetch (o : MpArgs) (s : State) : Host.Outcome State Fault Refusal := finish (actPrefetch o) s

/-! ### Stores (R143) -/

/-- A store at this place is a commit point: to an uncached object, past L1, to control space (R67). -/
def Target.storeCommits : Target → Bool
  | .home _ c _ => c
  | .control _ => true
  | _ => false

/-- The checks of a store that its place alone decides: rights, RO registers, EMGO's own (R275, R435). -/
def mayStore (a : Word) (t : Target) (bs : List Byte) : Act Unit :=
  match t with
  | .control off =>
    if off / 8 * 8 = emgoAt then do
      emgoChecks
      emgoTurn
    else do
      let at8 := off / 8 * 8
      match ← askS fun s => controlVerdict s (some s.cid) at8 (registerMerge (controlHeld s (some s.cid) at8) off bs) with
      | .forbidden => fault 0x05 a
      | .waits => stop (.stall 0)
      | .ok => pure ()
  | .debug w => require (!debugForbidden (w / 8 * 8)) (.trap (trapAt 0x05 a))
  | _ => pure ()

/-- Bytes stored at a place that they may be stored at. -/
def storeAt (t : Target) (bs : List Byte) (hint : Nat) : Act Unit :=
  match t with
  | .control off =>
    let at8 := off / 8 * 8
    if at8 = emgoAt then emgoSend
    else changeS fun s => controlWrite (some s.cid) at8 (registerMerge (controlHeld s (some s.cid) at8) off bs) s
  | .debug w => changeS fun s => debugWrite (w / 8 * 8) (registerMerge (debugRead s (w / 8 * 8)) w bs) s
  | t => writeTarget t bs hint

/-- Bytes stored at a checked place, and the retirement. -/
def storeInto (a : Word) (t : Target) (bs : List Byte) (hint : Nat) : Act Unit := do
  mayStore a t bs
  if t.storeCommits then commitPoint
  storeAt t bs hint
  retireAs t.storeCommits

/-- ST (R143). -/
def actSt (o : MArgs) : Act Unit := do
  let x ← readS o.base o.t
  let v ← readS o.d 0
  let w := widthOf o.size
  let ea := effective x o.imm w
  aligned ea w
  let t ← target ea w .store .write o.hint.toNat
  storeInto ea t (leBytes w v.toNat) o.hint.toNat
def execSt (o : MArgs) (s : State) : Host.Outcome State Fault Refusal := finish (actSt o) s

/-! ### The step that a .upd store names (R400, R402) -/

/-- A doubleword or word loaded by hardware through L1, as a load of an instruction (R402, R404). -/
def loadWord (a : Word) (n : Nat) : Act (Target × Nat) := do
  aligned a n
  let t ← target a n .load .read
  let (bs, _) ← readTarget t n
  pure (t, leValue bs)

/-- The package skip flag is set for a step (R402). -/
def skips (s : State) (step : BitVec 32) : Bool := s.pkg.skipFlag && s.pkg.skipStep = step

/-- ST_UPD (R143, R402): its bytes are stored as those of a store of normal hint, unless its step is skipped. Its own checks come before
those of the read of the STEP word. DESIGN CHOICE (log 41): the rules give the two no order. The fill of the STEP word may evict the
line of the store, whose place is therefore found anew. -/
def actStUpd (o : MuArgs) : Act Unit := do
  let x ← readS o.base o.t
  let v ← readS o.d 0
  let w := widthOf o.size
  let ea := effective x o.imm w
  let bs := leBytes w v.toNat
  aligned ea w
  let t ← target ea w .store .update
  mayStore ea t bs
  let h ← loadWord (← ask (·.optH)) 4
  if ← askS fun s => skips s (BitVec.ofNat 32 h.2) then
    if h.1.commits then commitPoint
    retireAs h.1.commits
  else
    if t.storeCommits || h.1.commits then commitPoint
    storeAt (← target ea w .store .update 0 false) bs 0
    retireAs (t.storeCommits || h.1.commits)
def execStUpd (o : MuArgs) (s : State) : Host.Outcome State Fault Refusal := finish (actStUpd o) s

end Sys2Proof.Machine
end

