-- ==== Sys2Proof/Machine/Amo.lean ====
section
/-!
DEFINITION. Atomics (R146 to R152): checks, returning atomics performed at once at their home, posted ones taken into the outbox.
-/

namespace Sys2Proof.Machine

/-- The width in bytes. -/
def amoBytes (w : BitVec 1) : Nat := if w = 1 then 4 else 8

/-- The physical place of an atomic, with the checks of R149. -/
def atomicPlace (ea : Word) (n : Nat) : Act Nat := fun s =>
  if s.core.seqTouches then .error (.stall 0)
  else if ea.toNat % n ≠ 0 then .error (.trap (trapAt 0x03 ea))
  else if ea.getLsbD 63 then
    match localTarget s ea n .atomic with
    | .ok (.sram p _ _) => .ok (p, s)
    | .ok _ => .error (.trap (trapAt 0x05 ea))
    | .error t => .error (.trap t)
  else
    match translate s (clusterOf s.cid) (objId ea) (objOff ea) n .atomic with
    | .error e => xfail e ea s
    | .ok (x, s) => .ok (x.phys, s)

/-- The write-back of the own line under an atomic, which a spoilt block may refuse (R150, R301). -/
def settleOwnLine (ea : Word) : Act Unit := do
  if !ea.getLsbD 63 then
    noRefusal fun l => l.addr = blockAddr ea
    changeS fun s => settleLine s.cid ea s

/-- A returning atomic (R146, R148, R151): a commit point, performed at its home before it retires. -/
def amoReturning (op : AmoOp) (o : AmoArgs) : Act Unit := do
  let ea ← readS o.a o.ta
  let b ← readS o.b o.tb
  let e ← if op = .cas then readS o.d 0 else pure 0
  awaitS o.d
  let n := amoBytes o.w
  let p ← atomicPlace ea n
  readable p ea
  behindPosted p .atomic
  commitPoint
  settleOwnLine ea
  let old ← fun s => .ok (amoAt op n p b e s)
  writeS o.d (extended true n old)
  retireCommit

/-- A posted atomic (R149, R151): checked at issue, one outbox entry. -/
def amoPosted (op : AmoOp) (o : AmoPArgs) : Act Unit := do
  let ea ← readS o.a o.ta
  let b ← readS o.b o.tb
  let n := amoBytes o.w
  let p ← atomicPlace ea n
  post (.amo op n ea p b)
  retire

/-- AMO_ADD (R148). -/
def actAmoAdd (o : AmoArgs) : Act Unit := amoReturning .add o
def execAmoAdd (o : AmoArgs) (s : State) : Host.Outcome State Fault Refusal := finish (actAmoAdd o) s

/-- AMO_AND (R148). -/
def actAmoAnd (o : AmoArgs) : Act Unit := amoReturning .and o
def execAmoAnd (o : AmoArgs) (s : State) : Host.Outcome State Fault Refusal := finish (actAmoAnd o) s

/-- AMO_OR (R148). -/
def actAmoOr (o : AmoArgs) : Act Unit := amoReturning .or o
def execAmoOr (o : AmoArgs) (s : State) : Host.Outcome State Fault Refusal := finish (actAmoOr o) s

/-- AMO_XOR (R148). -/
def actAmoXor (o : AmoArgs) : Act Unit := amoReturning .xor o
def execAmoXor (o : AmoArgs) (s : State) : Host.Outcome State Fault Refusal := finish (actAmoXor o) s

/-- AMO_MIN (R148). -/
def actAmoMin (o : AmoArgs) : Act Unit := amoReturning .min o
def execAmoMin (o : AmoArgs) (s : State) : Host.Outcome State Fault Refusal := finish (actAmoMin o) s

/-- AMO_MAX (R148). -/
def actAmoMax (o : AmoArgs) : Act Unit := amoReturning .max o
def execAmoMax (o : AmoArgs) (s : State) : Host.Outcome State Fault Refusal := finish (actAmoMax o) s

/-- AMO_MINU (R148). -/
def actAmoMinu (o : AmoArgs) : Act Unit := amoReturning .minu o
def execAmoMinu (o : AmoArgs) (s : State) : Host.Outcome State Fault Refusal := finish (actAmoMinu o) s

/-- AMO_MAXU (R148). -/
def actAmoMaxu (o : AmoArgs) : Act Unit := amoReturning .maxu o
def execAmoMaxu (o : AmoArgs) (s : State) : Host.Outcome State Fault Refusal := finish (actAmoMaxu o) s

/-- AMO_SWAP (R148). -/
def actAmoSwap (o : AmoArgs) : Act Unit := amoReturning .swap o
def execAmoSwap (o : AmoArgs) (s : State) : Host.Outcome State Fault Refusal := finish (actAmoSwap o) s

/-- AMO_CAS (R148). -/
def actAmoCas (o : AmoArgs) : Act Unit := amoReturning .cas o
def execAmoCas (o : AmoArgs) (s : State) : Host.Outcome State Fault Refusal := finish (actAmoCas o) s

/-- AMO_ADD_P (R151). -/
def actAmoAddP (o : AmoPArgs) : Act Unit := amoPosted .add o
def execAmoAddP (o : AmoPArgs) (s : State) : Host.Outcome State Fault Refusal := finish (actAmoAddP o) s

/-- AMO_AND_P (R151). -/
def actAmoAndP (o : AmoPArgs) : Act Unit := amoPosted .and o
def execAmoAndP (o : AmoPArgs) (s : State) : Host.Outcome State Fault Refusal := finish (actAmoAndP o) s

/-- AMO_OR_P (R151). -/
def actAmoOrP (o : AmoPArgs) : Act Unit := amoPosted .or o
def execAmoOrP (o : AmoPArgs) (s : State) : Host.Outcome State Fault Refusal := finish (actAmoOrP o) s

/-- AMO_XOR_P (R151). -/
def actAmoXorP (o : AmoPArgs) : Act Unit := amoPosted .xor o
def execAmoXorP (o : AmoPArgs) (s : State) : Host.Outcome State Fault Refusal := finish (actAmoXorP o) s

/-- AMO_MIN_P (R151). -/
def actAmoMinP (o : AmoPArgs) : Act Unit := amoPosted .min o
def execAmoMinP (o : AmoPArgs) (s : State) : Host.Outcome State Fault Refusal := finish (actAmoMinP o) s

/-- AMO_MAX_P (R151). -/
def actAmoMaxP (o : AmoPArgs) : Act Unit := amoPosted .max o
def execAmoMaxP (o : AmoPArgs) (s : State) : Host.Outcome State Fault Refusal := finish (actAmoMaxP o) s

/-- AMO_MINU_P (R151). -/
def actAmoMinuP (o : AmoPArgs) : Act Unit := amoPosted .minu o
def execAmoMinuP (o : AmoPArgs) (s : State) : Host.Outcome State Fault Refusal := finish (actAmoMinuP o) s

/-- AMO_MAXU_P (R151). -/
def actAmoMaxuP (o : AmoPArgs) : Act Unit := amoPosted .maxu o
def execAmoMaxuP (o : AmoPArgs) (s : State) : Host.Outcome State Fault Refusal := finish (actAmoMaxuP o) s

/-- AMO_SWAP_P (R151). -/
def actAmoSwapP (o : AmoPArgs) : Act Unit := amoPosted .swap o
def execAmoSwapP (o : AmoPArgs) (s : State) : Host.Outcome State Fault Refusal := finish (actAmoSwapP o) s

end Sys2Proof.Machine
end

