-- ==== Sys2Proof/Machine/Branch.lean ====
section
/-!
DEFINITION. Immediates, shifts by an immediate, upper immediates, branches and jumps (R134 to R138).
-/

namespace Sys2Proof.Machine

/-- An immediate ALU instruction (R134). -/
def aluImm (f : Word → Word → Word) (o : IArgs) : Act Unit := do
  let x ← readS o.a o.ta
  awaitS o.d
  writeS o.d (f x (o.imm.signExtend 64))
  retire

/-- A shift by an immediate: the ALU's shift with b<5:0> = n (R135). -/
def shiftImm (f : Word → Word → Word) (o : ShArgs) : Act Unit := do
  let x ← readS o.a o.ta
  awaitS o.d
  writeS o.d (f x (o.n.setWidth 64))
  retire

/-- ADDI (R134). -/
def execAddi (o : IArgs) (s : State) : Host.Outcome State Fault Refusal := finish (aluImm fnAdd o) s

/-- ANDI (R134). -/
def execAndi (o : IArgs) (s : State) : Host.Outcome State Fault Refusal := finish (aluImm fnAnd o) s

/-- ORI (R134). -/
def execOri (o : IArgs) (s : State) : Host.Outcome State Fault Refusal := finish (aluImm fnOr o) s

/-- XORI (R134). -/
def execXori (o : IArgs) (s : State) : Host.Outcome State Fault Refusal := finish (aluImm fnXor o) s

/-- SLTI (R134). -/
def execSlti (o : IArgs) (s : State) : Host.Outcome State Fault Refusal := finish (aluImm fnSlt o) s

/-- SLTIU (R134): unsigned against the sign-extended value. -/
def execSltiu (o : IArgs) (s : State) : Host.Outcome State Fault Refusal := finish (aluImm fnSltu o) s

/-- SLLI (R135). -/
def execSlli (o : ShArgs) (s : State) : Host.Outcome State Fault Refusal := finish (shiftImm fnSll o) s

/-- SRLI (R135). -/
def execSrli (o : ShArgs) (s : State) : Host.Outcome State Fault Refusal := finish (shiftImm fnSrl o) s

/-- SRAI (R135). -/
def execSrai (o : ShArgs) (s : State) : Host.Outcome State Fault Refusal := finish (shiftImm fnSra o) s

/-- ROLI (R135). -/
def execRoli (o : ShArgs) (s : State) : Host.Outcome State Fault Refusal := finish (shiftImm fnRol o) s

/-- imm20 in bits 31:12, extended (R84). -/
def upper (imm : BitVec 20) : Word := (imm ++ 0#12).signExtend 64

/-- LUI (R136). -/
def actLui (o : UArgs) : Act Unit := do
  awaitS o.d
  writeS o.d (upper o.imm)
  retire
def execLui (o : UArgs) (s : State) : Host.Outcome State Fault Refusal := finish (actLui o) s

/-- AUIPC (R136): PC is the address of the AUIPC itself. -/
def actAuipc (o : UArgs) : Act Unit := do
  awaitS o.d
  let pc ← ask (·.pc)
  writeS o.d (pc + upper o.imm)
  retire
def execAuipc (o : UArgs) (s : State) : Host.Outcome State Fault Refusal := finish (actAuipc o) s

/-- A displacement in halfwords from the instruction's own address (R84). -/
def branchTarget {n : Nat} (pc : Word) (disp : BitVec n) : Word := pc + (disp.signExtend 64 <<< 1)

/-- A branch: its condition is evaluated in the leader alone; a follower goes where its leader goes (R137, R265). -/
def branch (f : Word → Word → Bool) (o : BArgs) : Act Unit := do
  if (← ask (·.cvPos)) ≠ 0 then retire
  else
    let x ← readS o.a 0
    let y ← readS o.b 0
    let pc ← ask (·.pc)
    if f x y then retireTo (branchTarget pc o.disp) else retire

/-- BEQ (R137). -/
def fnBeq (x y : Word) : Bool := x == y
def execBeq (o : BArgs) (s : State) : Host.Outcome State Fault Refusal := finish (branch fnBeq o) s

/-- BNE (R137). -/
def fnBne (x y : Word) : Bool := x != y
def execBne (o : BArgs) (s : State) : Host.Outcome State Fault Refusal := finish (branch fnBne o) s

/-- BLT (R137). -/
def fnBlt (x y : Word) : Bool := x.slt y
def execBlt (o : BArgs) (s : State) : Host.Outcome State Fault Refusal := finish (branch fnBlt o) s

/-- BGE (R137). -/
def fnBge (x y : Word) : Bool := !x.slt y
def execBge (o : BArgs) (s : State) : Host.Outcome State Fault Refusal := finish (branch fnBge o) s

/-- BLTU (R137). -/
def fnBltu (x y : Word) : Bool := x.ult y
def execBltu (o : BArgs) (s : State) : Host.Outcome State Fault Refusal := finish (branch fnBltu o) s

/-- BGEU (R137). -/
def fnBgeu (x y : Word) : Bool := !x.ult y
def execBgeu (o : BArgs) (s : State) : Host.Outcome State Fault Refusal := finish (branch fnBgeu o) s

/-- JAL (R138). A follower writes the same link (R265). -/
def actJal (o : UArgs) : Act Unit := do
  awaitS o.d
  let pc ← ask (·.pc)
  writeS o.d (pc + 4)
  retireTo (branchTarget pc o.imm)
def execJal (o : UArgs) (s : State) : Host.Outcome State Fault Refusal := finish (actJal o) s

/-- JALR (R138): reads a before it writes d. The target is evaluated in the leader alone (R265). -/
def actJalr (o : IArgs) : Act Unit := do
  if (← ask (·.cvPos)) ≠ 0 then
    awaitS o.d
    let pc ← ask (·.pc)
    writeS o.d (pc + 4)
    retire
  else
    let x ← readS o.a o.ta
    awaitS o.d
    let pc ← ask (·.pc)
    writeS o.d (pc + 4)
    retireTo ((x + o.imm.signExtend 64) &&& ~~~ 1#64)
def execJalr (o : IArgs) (s : State) : Host.Outcome State Fault Refusal := finish (actJalr o) s

end Sys2Proof.Machine
end

