-- ==== Sys2Proof/Machine/Sync.lean ====
section
/-!
DEFINITION. Synchronisation: acquire and release of cairns (R306 to R315, R319 to R321), BIND and UNBIND (R322), fences and COMMIT
(R323), MON and MWAIT (R324), WAITT (R325).
-/

namespace Sys2Proof.Machine

/-! ### Cairns (R307) -/

/-- The checks of a cairn operand, and the cairn's physical address. -/
def checkCairn (a : Word) : Act Nat := do
  aligned a 64
  require (!a.getLsbD 63) (.trap (trapAt 0x05 a 4))
  fun s =>
    match translate s (clusterOf s.cid) (objId a) (objOff a) 64 .atomic with
    | .error e => xfail e a s
    | .ok (x, s) => if x.cls = 2 then .ok (x.phys, s) else .error (.trap (trapAt 0x05 a 4))

/-- The slot that names a cairn. -/
def slotOf (a : Word) : Act (Option Nat) := ask fun c => slotNamed c a

/-- The slot for a cairn, allocated if need be (R308): cause 0x05, DET1 5, where none can be freed. -/
def cairnSlot (a : Word) : Act Nat := do
  freedSlotSafe a
  fun s => match slotFor s.cid a s with
    | some (n, s) => .ok (n, s)
    | none => .error (.trap (trapAt 0x05 a 5))

/-! ### Acquire (R310, R311, R320) -/

/-- The last releaser can answer the surrender that the request would cause (R301, R427). -/
def surrenderable (a : Word) (p : Nat) : Act Unit := fun s =>
  match surrenderTrap a p s with
  | some t => .error (.trap t)
  | none => .ok ((), s)

/-- The hold that the home has granted, recorded in slot n, and the retirement. -/
def granted (excl try_ : Bool) (d : BitVec 5) (p n : Nat) : Act Unit := do
  changeS fun s => installGrant s.cid n excl (cairnHcnt s p) s
  if try_ then writeS d 0
  retireCommit

/-- The request at the cairn's home: granted or busy at once, or the instruction waits (R311). The replayed instruction asks again once the
withdrawal of its aborted request has reached the home (R310). -/
def requestHold (a : Word) (p : Nat) (excl try_ : Bool) (d : BitVec 5) (n : Nat) : Act Unit := do
  require (!(← askS fun s => withdrawing s s.cid)) (.stall 0x42)
  readable p a
  surrenderable a p
  let r ← fun s =>
    let r := homeAcquire a p ⟨s.cid, none⟩ excl try_ s
    .ok (r.1, r.2)
  match r with
  | .granted => granted excl try_ d p n
  | .busy =>
    writeS d 1
    retireCommit
  | .queued | .full => change fun c => { c with phase := .wait (.acquire a excl try_ d.toNat n) }

/-- The slot whose hold of a cairn the core has. -/
def heldSlot (c : Core) (a : Word) : Option Nat := (slotNamed c a).filter fun n => (c.slot n).hold ≠ .none

/-- A core takes the cairn of slot n without telling the home: it was lent to it, and nobody has asked for it (R310). -/
def takesLocally (c : Core) (n : Nat) : Bool := (c.slot n).ret && !(c.slot n).wait

/-- Acquire of R310. -/
def acquire (excl try_ : Bool) (o : RArgs) : Act Unit := do
  let a ← readS o.a o.ta
  if try_ then awaitS o.d
  let p ← checkCairn a
  require (← ask fun c => (heldSlot c a).isNone) (.trap (trapAt 0x05 a 3))
  commitPoint
  let n ← cairnSlot a
  if ← ask fun c => takesLocally c n then
    change fun c => c.putSlot n { c.slot n with hold := if excl then .exclusive else .shared, loc := true }
    if try_ then writeS o.d 0
    retireCommit
  else requestHold a p excl try_ o.d n

/-- ACQ_X (R310, R320). -/
def actAcqX (o : RArgs) : Act Unit := acquire true false o
def execAcqX (o : RArgs) (s : State) : Host.Outcome State Fault Refusal := finish (actAcqX o) s

/-- ACQ_S (R310, R320). -/
def actAcqS (o : RArgs) : Act Unit := acquire false false o
def execAcqS (o : RArgs) (s : State) : Host.Outcome State Fault Refusal := finish (actAcqS o) s

/-- TRYACQ_X (R310, R320). -/
def actTryacqX (o : RArgs) : Act Unit := acquire true true o
def execTryacqX (o : RArgs) (s : State) : Host.Outcome State Fault Refusal := finish (actTryacqX o) s

/-! ### Release (R312, R321) -/

/-- The checks of a release: the cairn's slot and its home. -/
def releaseChecks (a : Word) : Act (Nat × Nat) := do
  let p ← checkCairn a
  match ← ask fun c => heldSlot c a with
  | some n => pure (n, p)
  | none => stop (.trap (trapAt 0x05 a 2))

/-- The release of slot n's hold after its commit (R312). -/
def releaseHold (n p : Nat) : Act Unit := do
  mayRelease n p
  changeS fun s => releaseSlot s.cid n p s

/-- REL (R312). -/
def actRel (o : RArgs) : Act Unit := do
  let a ← readS o.a o.ta
  let x ← releaseChecks a
  homeAnswers x.1 x.2
  commitPoint
  releaseHold x.1 x.2
  retireCommit
def execRel (o : RArgs) (s : State) : Host.Outcome State Fault Refusal := finish (actRel o) s

/-! ### BIND and UNBIND (R322) -/

/-- BIND. -/
def actBind (o : RArgs) : Act Unit := do
  let a ← readS o.a o.ta
  let _ ← checkCairn a
  let n ← cairnSlot a
  change fun c => c.putSlot n { c.slot n with sticky := true }
  retire
def execBind (o : RArgs) (s : State) : Host.Outcome State Fault Refusal := finish (actBind o) s

/-- Slot n given up: its lines leave L1, the home that lent its cairn is told, and it is free unless an uncommitted line, or one whose
home does not answer, is left. -/
def unbindSlot (n p : Nat) (s : State) : State :=
  let s := modSlot s.cid n (fun x => { x with sticky := false }) s
  let s := purgeLines s.cid (fun l => l.slot = some n) s
  let s := if (s.core.slot n).ret then tellSurrender s.cid n p s else s
  if slotHasUnc s.core n || slotKeeps s s.core n then s else modSlot s.cid n (fun _ => Slot.free) s

/-- UNBIND. -/
def actUnbind (o : RArgs) : Act Unit := do
  let a ← readS o.a o.ta
  let p ← checkCairn a
  match ← slotOf a with
  | none => retire
  | some n =>
    require (← ask fun c => (heldSlot c a).isNone) (.trap (trapAt 0x05 a 3))
    noRefusal fun l => l.slot = some n
    if ← ask fun c => (c.slot n).ret then mayTell a p
    changeS (unbindSlot n p)
    retire
def execUnbind (o : RArgs) (s : State) : Host.Outcome State Fault Refusal := finish (actUnbind o) s

/-! ### Fences and COMMIT (R323) -/

/-- A packet under way from a core's outbox. -/
def Transit.isFrom (k : Nat) (t : Transit) : Bool :=
  match t with
  | .msg _ src _ _ _ _ _ | .hold src _ _ _ | .ready src _ _ _ | .push src _ _ _ | .dec src _ _ _ _ | .amo src _ _ _ _
  | .msgRefused src _ | .decRefused src _ => src = k
  | _ => false

/-- A fence up to its end: the region commits, committed dirty lines are written back, and every committed entry must be
performed at its destination. Until then it waits to retire: the answer is false. Its reason is the outbox's, where the head of that
waits on a full channel or host queue (R428). A line that stays dirty because its package does not answer (R427) is not waited for. DESIGN CHOICE
(log 44). -/
def drain : Act Bool := do
  commitPoint
  noRefusal fun _ => true
  changeS fun s => writeBackAll s.cid (fun _ => true) s
  if ← askS fun s => s.core.outbox.isEmpty && !s.net.any (·.isFrom s.cid) then pure true
  else
    waitCommitted (if ← askS fun s => headWaits s s.cid then 0x30 else 0)
    pure false

/-- Clean lines of unbound objects leave L1, and clean bytes of dirty ones (R323). -/
def Core.dropUnbound (c : Core) : Core :=
  { c with lines := (c.lines.filter fun l => !(l.slot.isNone && l.isClean)).map fun l => if l.slot.isNone then l.onlyDirty else l }

/-- FENCE_G (R303, R323). -/
def actFenceG (_o : RArgs) : Act Unit := do
  if ← drain then
    changeS fun s => { s with core := { s.core.dropUnbound with fenceStamp := s.pkg.cyc, fenced := true } }
    retireCommit
def execFenceG (o : RArgs) (s : State) : Host.Outcome State Fault Refusal := finish (actFenceG o) s

/-- FENCE_L (R303, R323). It sets the fetch stamp alone, as R323 has it: R303 can be read to have it set the fence stamp of data misses too.
DEDUCED (log 44). -/
def actFenceL (_o : RArgs) : Act Unit := do
  if ← drain then
    changeS fun s => { s with core := { s.core with ilines := [], fetchStamp := s.pkg.cyc, fetchFenced := true } }
    retireCommit
def execFenceL (o : RArgs) (s : State) : Host.Outcome State Fault Refusal := finish (actFenceL o) s

/-- COMMIT (R68, R323). -/
def actCommit (_o : RArgs) : Act Unit := do
  commitPoint
  retireCommit
def execCommit (o : RArgs) (s : State) : Host.Outcome State Fault Refusal := finish (actCommit o) s

/-! ### MON, MWAIT, WAITT (R324, R325) -/

/-- The home that is to register a monitor answers (R324, R427). -/
def homeRegisters (p : Nat) (a : Word) : Act Unit := fun s =>
  if reachable s p then .ok ((), s) else .error (.trap (lostHome p a))

/-- The monitors that one home registers (R324). -/
def homeMonitors : Nat := 64

/-- A core's monitor armed on a block; where its home's table is full, already triggered and in no table (R324). -/
def armMonitor (p : Nat) (s : State) : State :=
  let s := disarm s.cid s
  let full := decide (homeMonitors ≤ (s.monitors.filter fun m => !m.beyond && decide (homeOf m.block = homeOf p)).length)
  { s with monitors := s.monitors ++ [⟨s.cid, blockOf p, full, full⟩] }

/-- MON (R324): it reads nothing, and so takes no turn behind posted atomics; its block's home registers it, whatever L1 holds. -/
def actMon (o : RArgs) : Act Unit := do
  let a ← readS o.a o.ta
  let t ← target a 1 .load .read 0 false
  readableAt t 1
  let p ← placeOf t
  homeRegisters p a
  changeS (armMonitor p)
  retire
def execMon (o : RArgs) (s : State) : Host.Outcome State Fault Refusal := finish (actMon o) s

/-- MWAIT (R324). -/
def actMwait (_o : RArgs) : Act Unit := do
  if ← askS fun s => monitorHit s s.cid || yieldAsked s s.cid then
    changeS fun s => disarm s.cid s
    retire
  else change fun c => { c with phase := .wait .mwait }
def execMwait (o : RArgs) (s : State) : Host.Outcome State Fault Refusal := finish (actMwait o) s

/-- WAITT (R325): it waits for its time, unless a yield is requested, and then for its operations. -/
def actWaitt (o : RArgs) : Act Unit := do
  let t ← readS o.a o.ta
  if ← askS fun s => t.ule s.pkg.cyc || yieldAsked s s.cid then
    if ← ask fun c => decide (dueQueues c t = 0) then retire else changeS (checkPromise t (o.ta = 1) 0)
  else change fun c => { c with phase := .wait (.waitt t (o.ta = 1) 0) }
def execWaitt (o : RArgs) (s : State) : Host.Outcome State Fault Refusal := finish (actWaitt o) s

end Sys2Proof.Machine
end

