-- ==== Sys2Proof/Machine/Cluster.lean ====
section
/-!
DEFINITION. The cluster instructions: caravans (GANG, DISBAND, R263 to R266) and the crest barrier (CREST, BAR, R267 to R271).
-/

namespace Sys2Proof.Machine

/-! ### Caravans (R264 to R266) -/

/-- GANG and YIELD are illegal inside a caravan (R265). -/
def outsideCaravan : Act Unit := fun s => if s.core.cvSize = 0 then .ok ((), s) else .error (.trap { cause := 0x01 })

/-- A core is idle: not frozen, running no activation, having chosen none, in no caravan (R264). One at a boundary with a stop or a
vacate request stops or is vacated there (R355, R434). -/
def Core.canFollow (c : Core) : Bool := (c.phase = .idle || c.phase = .boundary) && c.act.isNone && c.cvSize = 0 && !c.vac &&
  !c.vacReq && !c.stopReq && c.exroute.isNone

/-- The status of GANG (R264), for the core whose turn it is. -/
def gangStatus (n : Nat) (s : State) : Nat :=
  let k := memberOf s.cid
  if !(n = 2 || n = 4 || n = 8) then 1
  else if k % n ≠ 0 then 2
  else if s.core.cvSize ≠ 0 then 3
  else if 15 < k + n then 4
  else if (List.range (n - 1)).any fun j => !(s.coreAt (s.cid + j + 1)).canFollow then 5
  else 0

/-- A follower set up by its leader (R264). What it issues from here on comes from no activation before (R256). -/
def Core.follow (c lead : Core) (p n : Nat) : Core :=
  { c with
    sregs := lead.sregs
    sfull := lead.sfull
    fcsr := lead.fcsr
    cvPos := p
    cvSize := n
    actNo := c.actNo + 1
    phase := .follower
    carIns := none
    pc := lead.next
    rpc := lead.next }

/-- The caravan formed: the leader is the core whose turn it is. -/
def formCaravan (n : Nat) (s : State) : State :=
  let s := { s with core := { s.core with cvPos := 0, cvSize := n } }
  (List.range (n - 1)).foldl (fun s j =>
    let m := s.cid + j + 1
    (traceChange m 1 0x18 s.pkg.cyc s).modCore m fun c => c.follow s.core (j + 1) n) s

/-- GANG (R264). -/
def actGang (o : RArgs) : Act Unit := do
  outsideCaravan
  let a ← readS o.a o.ta
  awaitS o.d
  commitPoint
  if ← ask fun c => decide (c.sfull = BitVec.allOnes 32) then
    let st ← askS (gangStatus a.toNat)
    writeS o.d (BitVec.ofNat 64 st)
    if st = 0 then changeS (formCaravan a.toNat)
    retireCommit
  else waitCommitted (← ask (·.fillReason))
def execGang (o : RArgs) (s : State) : Host.Outcome State Fault Refusal := finish (actGang o) s

/-- The followers of the caravan that the core whose turn it is leads. -/
def followersOf (s : State) : List Nat := if s.core.cvPos = 0 then (caravan s s.cid).filter (· ≠ s.cid) else []

/-- An act of follower m, for the caravan; the answer is false where its stop broke the caravan (R265, R266). -/
def followerDoes (act : Act Unit) (m : Nat) : Act Bool := fun s =>
  match act (s.focus m) with
  | .ok (_, t) => .ok (true, t.focus s.cid)
  | .error (.stall why) => .error (.stall why)
  | .error e => .ok (false, (takeStop e (s.focus m)).focus s.cid)

/-- An act of every follower, in order. -/
def followersDo (act : Act Unit) : List Nat → Act Bool
  | [] => pure true
  | m :: ms => do
    if ← followerDoes act m then followersDo act ms else pure false

/-- A follower commits its own region, once (R265, R266). -/
def followerCommits : Act Unit := do
  commitPoint
  change fun c => { c with committed := true }

/-- The caravan dissolved: its followers, whose holds end as at DONE, reach a boundary, and every CVPOS is 0 (R266, R313). -/
def dissolve (s : State) : State :=
  let fs := followersOf s
  let s := fs.foldl (fun s m => onCore m (fun s => reachBoundary (endHolds { s with core := s.core.leaveCaravan })) s) s
  { s with core := s.core.leaveCaravan }

/-- A caravan disbanded, once every register of its followers has filled (R56); the answer is false where that is still to come, or a
follower broke the caravan. -/
def disband : Act Bool := do
  let fs ← askS followersOf
  if !(← followersDo followerCommits fs) then pure false
  else
    match ← askS fun s => fs.find? fun m => !(s.coreAt m).allFull with
    | some m =>
      waitCommitted (← askS fun s => (s.coreAt m).fillReason)
      pure false
    | none =>
      let ok ← followersDo holdsRelease fs
      if ok then changeS dissolve
      pure ok

/-- The breakpoint of a member at a DISBAND that its leader, as it was, has issued (R433): the caravan is no more, and the member freezes
alone, at its boundary. DEDUCED (log 22). -/
def disbandBreak (l : Core) (s : State) : State :=
  match breakHit s.core l.act l.pc with
  | some n => takeFault (breakTrap n) { s with core := { s.core with insn := l.insn, pc := l.next } }
  | none => s

/-- DISBAND (R266). -/
def actDisband (_o : RArgs) : Act Unit := do
  commitPoint
  let fs ← askS followersOf
  if ← disband then
    let l ← ask id
    changeS fun s => fs.foldl (fun s m => onCore m (disbandBreak l) s) s
    retireCommit
def execDisband (o : RArgs) (s : State) : Host.Outcome State Fault Refusal := finish (actDisband o) s

/-! ### CREST and BAR (R268 to R270) -/

/-- A contribution: one that completes its round is made at once, and its release lands at once in the core that made it; another
goes to its context as a packet, and the instruction waits. -/
def contributing (bar : Bool) (o : RArgs) : Act Unit := do
  let w ← readS o.a o.ta
  require (cxLegal w) (.trap { cause := 0x04, addr := w })
  commitPoint
  let k ← askS (·.cid)
  let c ← ask fun c => contribution c bar
  let x ← askS fun s => (crestAt s k (cxScope w) (cxCtx w)).contribute k w c
  if x.complete then
    changeS (releaseCrest k (cxScope w) (cxCtx w) { x with parties := x.parties.filter (· ≠ k) })
    change fun c => c.land (cxCtx w) x.scale x.nf
    retireCommit
  else
    changeS fun s => { s with net := s.net ++ [.crest k (cxScope w) (cxCtx w) w c.1 c.2.1 c.2.2] }
    change fun c => { c with phase := .wait (.crest (cxScope w) (cxCtx w)) }

/-- CREST (R269). -/
def actCrest (o : RArgs) : Act Unit := contributing false o
def execCrest (o : RArgs) (s : State) : Host.Outcome State Fault Refusal := finish (actCrest o) s

/-- BAR (R269). -/
def actBar (o : RArgs) : Act Unit := contributing true o
def execBar (o : RArgs) (s : State) : Host.Outcome State Fault Refusal := finish (actBar o) s

end Sys2Proof.Machine
end

