-- ==== Sys2Proof/Machine/Cpy.lean ====
section
/-!
DEFINITION. The copy engine (R207 to R217): CPY, CPYA, CPYG, their promises, the chunks that the engine performs, QFENCE, CSTAT.
-/

namespace Sys2Proof.Machine

/-! ### Descriptors (R208, R209) -/

/-- A copy descriptor. -/
structure CopyDesc where
  src : Word
  dst : Word
  len : Nat
  b16 : Bool
  deriving DecidableEq, Repr

/-- The descriptor of 32 bytes; CPYG counts entries in 13 bits, the others bytes in 41. -/
def descOf (kind : CopyKind) (bs : List Byte) : CopyDesc :=
  let at_ (k : Nat) : Nat := leValue ((bs.drop (8 * k)).take 8)
  { src := BitVec.ofNat 64 (at_ 0), dst := BitVec.ofNat 64 (at_ 1), len := at_ 2 % (if kind = .cpyg then 2 ^ 13 else 2 ^ 41),
    b16 := at_ 3 % 2 = 1 }

/-- The largest length, and the element that addresses and length must be multiples of. -/
def copyLimit (kind : CopyKind) : Nat := if kind = .cpyg then 4096 else 2 ^ 40

/-- The space of an end (R209 step 3). -/
def copySpace (a : Word) : Act Unit :=
  if !a.getLsbD 63 then pure ()
  else if spaceOf a = 0 || spaceOf a = 7 then fault 0x04 a
  else if spaceOf a = 5 || spaceOf a = 6 then fault 0x05 a
  else pure ()

/-- The alignment of a descriptor's fields (R209 step 4). -/
def copyAligned (kind : CopyKind) (d : CopyDesc) : Act Unit :=
  match kind with
  | .cpy => pure ()
  | .cpya => do
    let w := if d.b16 then 2 else 4
    aligned d.src w
    aligned d.dst w
    require (d.len % w = 0) (.trap (trapAt 0x03 d.src))
  | .cpyg => aligned d.src 16

/-- The descriptor at an address, read and checked, and kept until the instruction retires (R209). Within a step SRC comes before DST, and
both before LEN. DESIGN CHOICE (log 41). -/
def readDesc (kind : CopyKind) (a : Word) : Act Unit := do
  aligned a 32
  let r ← readImageAt a 32
  let d := descOf kind r.1
  require (d.len ≠ 0 && d.len ≤ copyLimit kind) (.trap (trapAt 0x04 a))
  copySpace d.src
  copySpace d.dst
  copyAligned kind d
  orderCommit a 32
  change fun c => { c with image := r.1 }

/-! ### Entry to a queue (R210, R213) -/

/-- A gather-list entry as it reads: source and length; none where the list's own bytes cannot be read (R208). -/
def listEntry (s : State) (k : Nat) (list : Word) (i : Nat) : Option (Word × Nat) :=
  match copyPlace s k .src list (16 * i) 16 with
  | .error _ => none
  | .ok p => some (physWord s p, physNat s (p + 8) 8 % 2 ^ 41)

/-- A gather-list entry to be copied, or the stop reason of R214. -/
def gatherEntry (s : State) (k : Nat) (list : Word) (i : Nat) : Except Nat (Word × Nat) :=
  match listEntry s k list i with
  | none => .error 9
  | some e => if e.2 = 0 || 2 ^ 40 < e.2 then .error 11 else .ok e

/-- The source runs of a copy, as its list stands: address and length. -/
def sourceRuns (s : State) (k : Nat) (kind : CopyKind) (src : Word) (len : Nat) : List (Word × Nat) :=
  match kind with
  | .cpyg => (List.range len).filterMap fun i => match gatherEntry s k src i with
    | .ok e => some e
    | .error _ => none
  | _ => [(src, len)]

/-- The bytes that a copy writes. -/
def totalOf (runs : List (Word × Nat)) : Nat := (runs.map (·.2)).sum

/-- The youngest operation's promise, or 0 (R213, R216). -/
def youngest (q : CopyQueue) : Word := match q.ops.getLast? with
  | some o => o.promise
  | none => 0

/-- The addresses whose homes decide a copy's path class: SRC, DST, and the source of every list entry that can be read, whatever its length
(R213). -/
def classEnds (s : State) (k : Nat) (kind : CopyKind) (d : CopyDesc) : List (Side × Word) :=
  [(.src, d.src), (.dst, d.dst)] ++
    if kind = .cpyg then (List.range d.len).filterMap fun i => (listEntry s k d.src i).map fun e => (.src, e.1) else []

/-- The promise of a copy that enters a queue (R213). -/
def promiseOf (s : State) (q : CopyQueue) (kind : CopyKind) (d : CopyDesc) (runs : List (Word × Nat)) : Word :=
  let k := s.cid
  let cls := ((classEnds s k kind d).map fun x => pathClass s k x.1 x.2).foldl max 0
  let start := if (youngest q).ult s.pkg.cyc then s.pkg.cyc else youngest q
  let rate := classRate cls
  start + BitVec.ofNat 64 (classLat cls + (totalOf runs + rate - 1) / rate + (if kind = .cpyg then 8 * d.len else 0))

/-- Queue n of a core, and the core with it replaced. -/
def Core.queue (c : Core) (n : Nat) : CopyQueue := c.queues.toList.getD n CopyQueue.reset
def Core.putQueue (c : Core) (n : Nat) (q : CopyQueue) : Core := { c with queues := c.queues.setIfInBounds n q }

/-- The lines that a copy writes back: those of its source runs and of its list (R210). -/
def inSources (kind : CopyKind) (d : CopyDesc) (runs : List (Word × Nat)) (l : Line) : Bool :=
  (kind = .cpyg && lineIn d.src (16 * d.len) l) || runs.any fun r => lineIn r.1 r.2 l

/-- A copy enters queue n: what it does to the core's L1, and its promise. -/
def enterQueue (n : Nat) (kind : CopyKind) (d : CopyDesc) : Act Word := do
  noRefusal fun l => kind = .cpyg && lineIn d.src (16 * d.len) l
  changeS fun s => writeBackAll s.cid (fun l => kind = .cpyg && lineIn d.src (16 * d.len) l) s
  let runs ← askS fun s => sourceRuns s s.cid kind d.src d.len
  noRefusal fun l => inSources kind d runs l || lineIn d.dst (totalOf runs) l
  changeS fun s => flushDest s.cid d.dst (totalOf runs) (writeBackAll s.cid (inSources kind d runs) s)
  let p ← askS fun s => promiseOf s (s.core.queue n) kind d runs
  change fun c =>
    let q := c.queue n
    c.putQueue n { q with ops := q.ops ++
      [{ kind := kind, src := d.src, dst := d.dst, len := d.len, b16 := d.b16, promise := p, pos := 0, entry := 0, entryPos := 0 }] }
  pure p

/-- A copy instruction (R207, R209): a full queue makes it wait after its commit. -/
def copyInsn (kind : CopyKind) (o : CpyArgs) : Act Unit := do
  let a ← readS o.a o.ta
  awaitS o.d
  if (← ask (·.image)).isEmpty then readDesc kind a
  commitPoint
  let d ← ask fun c => descOf kind c.image
  if (← ask fun c => decide (16 ≤ (c.queue o.q.toNat).ops.length)) then waitCommitted 0x44
  else
    let p ← enterQueue o.q.toNat kind d
    writeS o.d p
    retireCommit

/-- CPY (R208 to R210). -/
def actCpy (o : CpyArgs) : Act Unit := copyInsn .cpy o
def execCpy (o : CpyArgs) (s : State) : Host.Outcome State Fault Refusal := finish (actCpy o) s

/-- CPYA (R211). -/
def actCpya (o : CpyArgs) : Act Unit := copyInsn .cpya o
def execCpya (o : CpyArgs) (s : State) : Host.Outcome State Fault Refusal := finish (actCpya o) s

/-- CPYG (R212). -/
def actCpyg (o : CpyArgs) : Act Unit := copyInsn .cpyg o
def execCpyg (o : CpyArgs) (s : State) : Host.Outcome State Fault Refusal := finish (actCpyg o) s

/-- QFENCE (R215). -/
def actQfence (o : QfArgs) : Act Unit := do
  require (← ask fun c => (List.range 4).all fun n => !o.k.getLsbD n || (c.queue n).ops.isEmpty) (.stall 0x44)
  retire
def execQfence (o : QfArgs) (s : State) : Host.Outcome State Fault Refusal := finish (actQfence o) s

/-- CSTAT (R216). -/
def actCstat (o : CpyArgs) : Act Unit := do
  awaitS o.d
  let p ← ask fun c => youngest (c.queue o.q.toNat)
  writeS o.d p
  retire
def execCstat (o : CpyArgs) (s : State) : Host.Outcome State Fault Refusal := finish (actCstat o) s

/-! ### Chunks and stops (R210 to R215) -/

/-- The sources and the destination of an operation overlap, of a gather those of any of its entries (R210). -/
def CopyOp.overlaps (o : CopyOp) (s : State) (k : Nat) : Bool :=
  let runs := sourceRuns s k o.kind o.src o.len
  copyOverlaps s k runs o.dst (totalOf runs)

/-- How an operation writes a run, by its kind: free where source and destination overlap (R210). CPYA passes no tag (R211). -/
def writingOf (o : CopyOp) (overlap : Bool) (n : Nat) : Writing :=
  if overlap then .free (if o.kind = .cpya then .never else .always) n
  else match o.kind with
    | .cpya => .sum o.b16
    | _ => .plain

/-- A stop: its reason and the destination offset that it counts from. -/
structure CopyStop where
  reason : Nat
  at_ : Nat
  deriving DecidableEq, Repr

/-- The destination offset at which a copy has stopped: of a piece that lies in two chunks and fails by the bytes of the later one alone,
where that chunk begins (R214). -/
def stopOffset (s : State) (k : Nat) (src dst : End) (e : RunStop) : Nat :=
  let at_ := dst.off + e.off
  let cut := 4096 * (at_ / 4096 + 1)
  if cut < at_ + e.len && (piecePlaces s k src dst e.off (cut - at_) false).isOk then cut else at_

/-- Bytes of one source run moved, n of them, from a destination offset; `first` is where the run's own bytes begin. -/
def moveBytes (k : Nat) (o : CopyOp) (src : Word) (pos first n : Nat) (s : State) : State × Option CopyStop :=
  let overlap := o.overlaps s k
  let from_ : End := ⟨src, pos - first⟩
  let to_ : End := ⟨o.dst, pos⟩
  let r := copyRun k (writingOf o overlap s.nfree) (o.dst + BitVec.ofNat 64 first) from_ to_ n s
  (if overlap then { r.1 with nfree := s.nfree + 2 ^ 13 } else r.1,
   r.2.map fun e => ⟨e.reason, if e.side = .src && o.kind = .cpyg then first else stopOffset s k from_ to_ e⟩)

/-- The next bytes of a gather, entry by entry, up to a room; each takes at least a byte or ends an entry. -/
def gatherBytes (k : Nat) : Nat → Nat → CopyOp → State → State × CopyOp × Option CopyStop
  | 0, _, o, s => (s, o, none)
  | fuel + 1, room, o, s =>
    if room = 0 || o.len ≤ o.entry then (s, o, none)
    else
      let first := o.pos - o.entryPos
      match gatherEntry s k o.src o.entry with
      | .error e => (s, o, some ⟨e, first⟩)
      | .ok (a, n) =>
        let m := min room (n - o.entryPos)
        match moveBytes k o a o.pos first m s with
        | (s, some e) => (s, o, some e)
        | (s, none) =>
          let o := { o with pos := o.pos + m }
          gatherBytes k fuel (room - m)
            (if n ≤ o.entryPos + m then { o with entry := o.entry + 1, entryPos := 0 } else { o with entryPos := o.entryPos + m }) s

/-- Where a step of an operation that has come to a destination offset ends: with the chunk of 4 KiB (R214), and for CPYA with the
destination block that holds the chunk's last byte, whose additions are not to be parted (R211). -/
def CopyOp.stepEnd (o : CopyOp) (pos : Nat) : Nat :=
  let tail := if o.kind = .cpya then (64 - o.dst.toNat % 64) % 64 else 0
  min o.len (tail + 4096 * ((pos - tail) / 4096 + 1))

/-- One chunk of an operation: 4 KiB of destination (R214). -/
def runChunk (k : Nat) (o : CopyOp) (s : State) : State × CopyOp × Option CopyStop :=
  match o.kind with
  | .cpyg => gatherBytes k 4097 4096 o s
  | _ =>
    let n := o.stepEnd o.pos - o.pos
    match moveBytes k o o.src o.pos 0 n s with
    | (s, some e) => (s, o, some e)
    | (s, none) => (s, { o with pos := o.pos + n }, none)

/-- An operation has copied everything. -/
def CopyOp.finished (o : CopyOp) : Bool := match o.kind with
  | .cpyg => o.len ≤ o.entry
  | _ => o.len ≤ o.pos

/-- A run that an operation still has to copy: its source, destination offset, length, and where the bytes that it belongs to begin. -/
structure RestRun where
  src : End
  pos : Nat
  len : Nat
  first : Nat
  deriving DecidableEq, Repr

/-- The runs that an operation still has to copy: of a gather, those of its entries from the one that it has come to. -/
def restRuns (s : State) (k : Nat) (o : CopyOp) : List RestRun :=
  match o.kind with
  | .cpyg =>
    let es := (List.range (o.len - o.entry)).filterMap fun i => match gatherEntry s k o.src (o.entry + i) with
      | .ok e => some e
      | .error _ => none
    let done (pos : Nat) : Nat := o.pos - pos
    (es.foldl (fun (acc : List RestRun × Nat) e =>
      (acc.1 ++ [⟨⟨e.1, done acc.2⟩, acc.2 + done acc.2, e.2 - done acc.2, acc.2⟩], acc.2 + e.2)) ([], o.pos - o.entryPos)).1
  | _ => [⟨⟨o.src, o.pos⟩, o.pos, o.len - o.pos, 0⟩]

/-- The bytes of the stopping chunk and of every later one: each old or new, freely (R214), or free where the copy overlaps. -/
def scramble (k : Nat) (o : CopyOp) (s : State) : State :=
  let overlap := o.overlaps s k
  let how (n : Nat) : Writing := if overlap then .free (if o.kind = .cpya then .never else .maybe) n else .mixed (if o.kind = .cpya then some o.b16 else none) n
  (restRuns s k o).foldl (fun s r =>
    let dst : End := ⟨o.dst, r.pos⟩
    moveWhere k (how (s.nfree + r.pos)) r.src dst (piecesOf (o.dst + BitVec.ofNat 64 r.first) r.src dst r.len) s) s

/-- A stopped operation: the chunks below the stopping one are complete, and its bytes and those of every later one are old or new. -/
def stopAt (k : Nat) (o : CopyOp) (e : CopyStop) (s : State) : State :=
  let whole := 4096 * (e.at_ / 4096)
  if o.pos < whole then scramble k { o with pos := whole } (moveBytes k o o.src o.pos 0 (whole - o.pos) s).1 else scramble k o s

/-- The bytes of destination that an operation spans. -/
def CopyOp.span (o : CopyOp) (s : State) (k : Nat) : Nat := match o.kind with
  | .cpyg => o.pos + ((restRuns s k o).map (·.len)).sum
  | _ => o.len

/-- A stop recorded, if none stands since software last cleared it (R214). -/
def CopyQueue.record (q : CopyQueue) (e : CopyStop) : CopyQueue :=
  if q.stop then q else { q with stop := true, reason := BitVec.ofNat 4 e.reason, chunk := BitVec.ofNat 28 (e.at_ / 4096) }

/-- An operation is done: it leaves its queue, and the core's clean lines of its destination leave L1 (R214, R217). -/
def endCopy (k n : Nat) (o : CopyOp) (e : Option CopyStop) (s : State) : State :=
  let s := dropCleanDest k o.dst (o.span s k) s
  s.modCore k fun c =>
    let q := c.queue n
    let q := match e with
      | some e => q.record e
      | none => q
    c.putQueue n { q with ops := q.ops.tail }

/-- COPY_CHUNK (R214, R215): the next chunk of the operation at the head of a queue. Every copy performs its chunks in ascending order, also
where R214 asks for that order in acknowledgement only. DESIGN CHOICE (log 14). -/
def actCopyChunk (core q : Nat) (s : State) : State :=
  match ((s.coreAt core).queue q).ops with
  | [] => s
  | o :: _ =>
    match runChunk core o s with
    | (_, _, some e) => endCopy core q o (some e) { stopAt core o e s with nfree := s.nfree + o.span s core + 1 }
    | (t, o', none) =>
      if o'.finished then endCopy core q o' none t
      else t.modCore core fun c =>
        let x := c.queue q
        c.putQueue q { x with ops := o' :: x.ops.tail }
def execCopyChunk (core q : Nat) (s : State) : Host.Outcome State Fault Refusal := .next (actCopyChunk core q s)

end Sys2Proof.Machine
end

