-- ==== Sys2Proof/Machine/Exp.lean ====
section
/-!
DEFINITION. The expert instructions (R373, R374, R382 to R391). EXROUTE sends its request and goes on; every other one is performed
at the entry's home before it retires.
-/

namespace Sys2Proof.Machine

/-! ### Requests (R384) -/

/-- An act after the commit of its instruction: a fault that it finds leaves RPC at the instruction, whose region is committed
(R384). The commit of a replay forgets no block on which the instruction has already aborted (R71). -/
def onceCommitted (m : Act Unit) : Act Unit := do
  let met ← ask (·.lastEcc)
  commitPoint
  fun s => .ok ((), after (do
    m
    change fun c => { c with lastEcc := none }) { s with core := { s.core with committed := true, lastEcc := met } })

/-- A request performed at the entry's home, or the trap found there, without effect at the home. -/
def atHome (f : State → Except Trap State) : Act Unit := do
  fun s => match f s with
    | .error t => .error (.trap t)
    | .ok t => .ok ((), t)
  retireCommit

/-- An instruction that is one request (R384). -/
def atExpert (f : State → Except Trap State) : Act Unit := onceCommitted (atHome f)

/-- The name, and the slot, of an operand word (R373). -/
def xName (w : Word) : BitVec 16 := w.extractLsb' 0 16
def xSlot (w : Word) : Nat := (w.extractLsb' 16 4).toNat

/-- The expert is valid, and the issuer is its owner (R382). -/
def ownerTrap (s : State) (w : Word) : Option Trap :=
  if !xValid s (xName w) then some (trapAt 0x06 w 7)
  else if xOwner s (xName w) ≠ s.cid then some (trapAt 0x05 w 6)
  else none

/-- EXROUTE (R385). -/
def actExroute (o : RArgs) : Act Unit := do
  let w ← readS o.a o.ta
  let n ← readS o.b o.tb
  awaitS o.d
  onceCommitted do
    require (n ≠ 0 && n.toNat < 2 ^ 32) (.trap (trapAt 0x04 n))
    changeS fun s =>
      { s with
        net := s.net ++ [.expert s.cid (xName w) (.route (w.extractLsb' 32 32) n)]
        core := { s.core.emptyS o.d.toNat with exroute := some (o.d.toNat, s.core.next) } }
    retire
def execExroute (o : RArgs) (s : State) : Host.Outcome State Fault Refusal := finish (actExroute o) s

/-! ### The owner's instructions -/

/-- The lowest EMPTY slot. -/
def emptySlot (s : State) (x : BitVec 16) : Option Nat := (List.range 16).find? fun n => (replica s x n).state = 0

/-- The first status of R386 that applies, and its effect. The null object has no entry (R277). -/
def spawnReplica (x : BitVec 16) (r : Word) (s : State) : Nat × State :=
  let core := (r.extractLsb' 0 12).toNat
  let wobj := (r.extractLsb' 12 23).toNat
  let e := readEntry s wobj
  if 0xC00 ≤ core || (s.coreAt core).fencedOff then (0x12, s)
  else if wobj = 0 || !e.v || !e.xrep || e.xname ≠ x then (0x11, s)
  else
    match emptySlot s x with
    | none => (0x10, s)
    | some n => (n, setReplica x n { Replica.empty with core := core, wobj := wobj, state := 1 } s)

/-- EXSPAWN (R386). -/
def actExspawn (o : RArgs) : Act Unit := do
  let w ← readS o.a o.ta
  let r ← readS o.b o.tb
  awaitS o.d
  atExpert fun s =>
    match ownerTrap s w with
    | some t => .error t
    | none =>
      let y := spawnReplica (xName w) r s
      .ok { y.2 with core := y.2.core.setS o.d.toNat (BitVec.ofNat 64 y.1) }
def execExspawn (o : RArgs) (s : State) : Host.Outcome State Fault Refusal := finish (actExspawn o) s

/-- The L1 of the replica's core gives up a weight object's lines, and takes a new fence stamp (R387). -/
def refreshReplica (k wobj : Nat) (s : State) : State :=
  (purgeLines k (fun l => objId l.addr = wobj) s).modCore k fun c => { c with fenceStamp := s.pkg.cyc, fenced := true }

/-- EXACT's effect at the home. A write-back of the replica's core that its home refuses is reported, and nothing is done (R71, R301). -/
def activate (w : Word) (s : State) : Except Trap State :=
  let x := xName w
  match ownerTrap s w with
  | some t => .error t
  | none =>
    let r := replica s x (xSlot w)
    if !(r.state = 1 || r.state = 2) then .error (trapAt 0x05 w 7)
    else match refusedLine r.core (fun l => objId l.addr = r.wobj) s with
    | some l => .error (refusedBack r.core l)
    | none =>
      let s := setReplica x (xSlot w) { r with state := 2, wver := xCver s x } s
      .ok (refreshReplica r.core r.wobj (invalidateExpert x (advanceRoster x s)))

/-- EXACT (R387). -/
def actExact (o : RArgs) : Act Unit := do
  let w ← readS o.a o.ta
  atExpert (activate w)
def execExact (o : RArgs) (s : State) : Host.Outcome State Fault Refusal := finish (actExact o) s

/-- EXRETIRE's effect at the home (R374). -/
def retireReplica (w : Word) (s : State) : Except Trap State :=
  let x := xName w
  match ownerTrap s w with
  | some t => .error t
  | none =>
    let r := replica s x (xSlot w)
    if !(r.state = 1 || r.state = 2) then .error (trapAt 0x05 w 7)
    else
      let r' := if r.state = 2 && (xJroster s x).getLsbD (xSlot w) then { r with state := 3 } else Replica.empty
      .ok (invalidateExpert x (advanceRoster x (setReplica x (xSlot w) r' s)))

/-- EXRETIRE (R388). -/
def actExretire (o : RArgs) : Act Unit := do
  let w ← readS o.a o.ta
  atExpert (retireReplica w)
def execExretire (o : RArgs) (s : State) : Host.Outcome State Fault Refusal := finish (actExretire o) s

/-- A slot as a step's end leaves it. -/
def closeSlot (x : BitVec 16) (s : State) (n : Nat) : State :=
  let r := replica s x n
  setReplica x n (if r.state = 4 then Replica.empty else { r with routed := 0 }) s

/-- ExPub of R391. -/
def publish (w : Word) (s : State) : Except Trap State :=
  let x := xName w
  match ownerTrap s w with
  | some t => .error t
  | none =>
    if xJoined s x ≠ xJroster s x || (List.range 16).any (fun n => (replica s x n).outst ≠ 0) then .error (trapAt 0x05 w 9)
    else
      let low := (List.range 16).filter fun n => (replica s x n).state = 2 && (replica s x n).routed.toNat < xShrink s x
      let s := if xShrink s x ≠ 0 && !low.isEmpty then notice x 2 0 ((slotMask low).setWidth 64) s.cid s else s
      let s := (List.range 16).foldl (closeSlot x) s
      let s := setX x 24 0 48 0 s
      let s := setX x 8 0 32 (xCver s x + 1).toNat s
      .ok (invalidateExpert x (advanceRoster x s))

/-- EXPUB (R391). -/
def actExpub (o : RArgs) : Act Unit := do
  let w ← readS o.a o.ta
  atExpert (publish w)
def execExpub (o : RArgs) (s : State) : Host.Outcome State Fault Refusal := finish (actExpub o) s

/-! ### The join (R379, R389) -/

/-- The join area is usable: PLEN, and the checks of R282 at each of its pages with write permission. -/
def joinAreaOk (s : State) (x : BitVec 16) : Bool :=
  let n := xPlen s x
  let off := objOff (xJobj s x)
  n % 64 = 0 && 64 ≤ n && n ≤ 2 ^ 24 &&
    (checkEntry s (objId (xJobj s x)) off (16 * n) .write).isNone &&
    (List.range ((off + 16 * n - 1) / 4096 + 1 - off / 4096)).all fun k =>
      match walk s (objId (xJobj s x)) (max off ((off / 4096 + k) * 4096)) 1 .write with
      | .ok _ => true
      | .error _ => false

/-- The partial written to its place, as a copy (R210). -/
def joinCopy (x : BitVec 16) (n : Nat) (p w : Word) (s : State) : Except Trap State :=
  let len := xPlen s x
  let dst := xJobj s x + BitVec.ofNat 64 (len * n)
  let s := flushDest s.cid dst len s
  let overlap := copyOverlaps s s.cid [(p, len)] dst len
  match copyRun s.cid (if overlap then .free .always s.nfree else .plain) dst ⟨p, 0⟩ ⟨dst, 0⟩ len s with
  | (t, none) => .ok (if overlap then { t with nfree := t.nfree + len } else t)
  | (_, some e) =>
    let a := (if e.side = .src then p else dst) + BitVec.ofNat 64 e.off
    if e.reason = 7 then .error (trapAt 0x0C a 2)
    else if e.reason = 8 then .error (trapAt 0x0C a 3)
    else if e.reason = 6 || e.reason = 3 then .error (trapAt 0x0C a)
    else .error (trapAt 0x06 w 7)

/-- What the home finds wrong with an EXJOIN or EXJOIN.F, with a partial or without one (ExJoin of R389). -/
def joinTrap (w : Word) (partial? final : Bool) (s : State) : Option Trap :=
  let x := xName w
  let r := replica s x (xSlot w)
  let k := w.extractLsb' 20 32
  let ok := if !partial? then r.state = 2 || r.state = 3 else if final then r.state = 3 else r.state = 2
  if !xValid s x then some (trapAt 0x06 w 7)
  else if partial? && !joinAreaOk s x then some (trapAt 0x06 w 7)
  else if !ok then some (trapAt 0x05 w 7)
  else if r.outst.toNat < k.toNat then some (trapAt 0x05 w 8)
  else if partial? && r.outst - k.setWidth 64 ≠ 0 then some (trapAt 0x05 w 8)
  else if partial? && (xJoined s x).getLsbD (xSlot w) then some (trapAt 0x05 w 10)
  else none

/-- ExJoin of R389, with or without a partial, for EXJOIN or EXJOIN.F. -/
def join (w : Word) (p : Option Word) (final : Bool) (s : State) : Except Trap State :=
  let x := xName w
  let n := xSlot w
  let r := replica s x n
  match joinTrap w p.isSome final s, p with
  | some t, _ => .error t
  | none, none => .ok (setReplica x n { r with outst := r.outst - (w.extractLsb' 20 32).setWidth 64 } s)
  | none, some p =>
    match joinCopy x n p w s with
    | .error t => .error t
    | .ok s =>
      let s := setReplica x n { r with outst := 0, state := if final then 4 else r.state } s
      let s := setX x 24 32 16 (xJoined s x ||| (1#16 <<< n)).toNat s
      .ok (if final then setX x 24 16 16 (xHanded s x ||| (1#16 <<< n)).toNat s else s)

/-- The bytes of one block of the partial, checked as a load (R141, R389), and their place at their home. -/
def joinSource (a : Word) (n : Nat) : Act Nat := do
  match ← target a n .load .read 0 false with
  | .control _ | .debug _ => fault 0x05 a
  | t =>
    readableAt t n
    placeOf t

/-- The checks of a partial at issue (R389), and the places of its blocks. -/
def joinIssue (w p : Word) : Act (List (Nat × Word)) := do
  aligned p 64
  copySpace p
  let len ← askS fun s => xPlen s (xName w)
  collect (fun x => do
    let at_ ← joinSource x.1 x.2
    pure (at_, x.1)) (pieces p len)

/-- The issuing core's dirty lines in a range of an EXJOIN written back; a refused write-back is a fault (R301). -/
def joinBack (a : Word) (len : Nat) : Act Unit := do
  noRefusal (lineIn a len)
  changeS fun s => flushSource s.cid a len s

/-- The join of a partial whose source has been checked at issue: its source lines are written back, the home makes its checks, and then
reads the partial, from blocks that may still hold an uncorrectable error there, whatever L1 holds (R71, R301, R389). -/
def joinPartial (w p : Word) (final : Bool) (from_ : List (Nat × Word)) : Act Unit := do
  let len ← askS fun s => xPlen s (xName w)
  joinBack p len
  match ← askS (joinTrap w true final) with
  | some t => fun _ => .error (.trap t)
  | none => do
    noRefusal (lineIn ((← askS fun s => xJobj s (xName w)) + BitVec.ofNat 64 (len * xSlot w)) len)
    each (fun x => readable x.1 x.2) from_
    atHome (join w (some p) final)

/-- EXJOIN and EXJOIN.F (R389); b = s0 names no partial. -/
def joinInsn (o : RArgs) (final : Bool) : Act Unit := do
  let w ← readS o.a o.ta
  if o.b = 0 then atExpert (join w none final)
  else
    let p ← readS o.b o.tb
    onceCommitted do
      joinPartial w p final (← joinIssue w p)

/-- EXJOIN (R389). -/
def actExjoin (o : RArgs) : Act Unit := joinInsn o false
def execExjoin (o : RArgs) (s : State) : Host.Outcome State Fault Refusal := finish (actExjoin o) s
/-- EXJOIN.F (R389). -/
def actExjoinF (o : RArgs) : Act Unit := joinInsn o true
def execExjoinF (o : RArgs) (s : State) : Host.Outcome State Fault Refusal := finish (actExjoinF o) s

/-! ### EXSTAT (R390) -/

/-- The roster word. -/
def rosterWord (s : State) (x : BitVec 16) : Word :=
  if !xValid s x then 1#64 <<< 63
  else BitVec.ofNat 64 ((xJroster s x).toNat + (xHanded s x).toNat * 2 ^ 16 + (xJoined s x).toNat * 2 ^ 32 +
    (xRoster s x).toNat * 2 ^ 48 + (routable s x).length * 2 ^ 56)

/-- A request of the core whose turn it is to an expert is under way: a later one waits behind it (R370). -/
def expertAhead (x : BitVec 16) (s : State) : Bool :=
  s.net.any fun t => match t with
    | .expert core name _ => core = s.cid && name = x
    | _ => false

/-- EXSTAT (R390). -/
def actExstat (o : RArgs) : Act Unit := do
  let w ← readSD o.d o.a o.ta
  require (!(← askS (expertAhead (xName w)))) (.stall 0x41)
  let v ← askS fun s => rosterWord s (xName w)
  writeS o.d v
  retire
def execExstat (o : RArgs) (s : State) : Host.Outcome State Fault Refusal := finish (actExstat o) s

end Sys2Proof.Machine
end

