-- ==== Sys2Proof/Machine/Vfp.lean ====
section
/-!
DEFINITION. Floating-point vector arithmetic (VFP, R163, R164), special functions (VSFU, R165) and the floating 16-bit forms (R89).
-/

namespace Sys2Proof.Machine

/-- The format of a floating type. -/
def vfmt (ty : Nat) : Fmt :=
  match ty with
  | 1 => fmtF64
  | 2 => fmtB16
  | 3 => fmtF16
  | _ => fmtF32

/-- An element function on a lane: on both halves of a packed lane, their flags together (R36). -/
def lift1 (ty : Nat) (f : Nat → Nat × Fl) (a : Nat) : Nat × Fl :=
  if isPacked ty then
    let lo := f (a % 2 ^ 16)
    let hi := f (a / 2 ^ 16)
    (lo.1 + hi.1 * 2 ^ 16, lo.2.or hi.2)
  else f a
def lift2 (ty : Nat) (f : Nat → Nat → Nat × Fl) (a b : Nat) : Nat × Fl :=
  if isPacked ty then
    let lo := f (a % 2 ^ 16) (b % 2 ^ 16)
    let hi := f (a / 2 ^ 16) (b / 2 ^ 16)
    (lo.1 + hi.1 * 2 ^ 16, lo.2.or hi.2)
  else f a b
def lift3 (ty : Nat) (f : Nat → Nat → Nat → Nat × Fl) (a b d : Nat) : Nat × Fl :=
  if isPacked ty then
    let lo := f (a % 2 ^ 16) (b % 2 ^ 16) (d % 2 ^ 16)
    let hi := f (a / 2 ^ 16) (b / 2 ^ 16) (d / 2 ^ 16)
    (lo.1 + hi.1 * 2 ^ 16, lo.2.or hi.2)
  else f a b d

/-- Lane results delivered: flags raised, the destination written under the frame, the instruction retired (R160). -/
def deliverLanes (ty : Nat) (vd : Nat) (rs : List (Nat × Fl)) : Act Unit := do
  change fun c => (c.raise (rs.map (·.2))).writeLanes ty vd (rs.map (·.1))
  retire

/-- A one-source element function as a vector instruction. -/
def vec1 (f : Core → Nat → Nat → Nat × Fl) (o : VArgs) : Act Unit := do
  let a ← readLanes o.ty.toNat o.va.toNat o.t
  vectorIssue
  awaitV o.ty.toNat o.vd.toNat
  let c ← ask id
  deliverLanes o.ty.toNat o.vd.toNat (a.map (lift1 o.ty.toNat (f c o.ty.toNat)))

/-- A two-source element function as a vector instruction. -/
def vec2 (f : Core → Nat → Nat → Nat → Nat × Fl) (o : VArgs) : Act Unit := do
  let a ← readLanes o.ty.toNat o.va.toNat o.t
  let b ← readVb o.ty.toNat o.bs o.vb o.t
  vectorIssue
  awaitV o.ty.toNat o.vd.toNat
  let c ← ask id
  deliverLanes o.ty.toNat o.vd.toNat (List.zipWith (lift2 o.ty.toNat (f c o.ty.toNat)) a b)

/-- The addend of a fused operation: c where use-c = 1, else the old vd, read with t = 0 (R96). -/
def readAddend (o : VArgs) : Act (List Nat) := do
  let p ← ask prefixOf
  if p.usec then readLanes o.ty.toNat p.c.toNat 0 else readLanes o.ty.toNat o.vd.toNat 0

/-- A fused multiply and add: ± a × b ± d (R163). -/
def vecFma (negProduct negAddend : Bool) (o : VArgs) : Act Unit := do
  let a ← readLanes o.ty.toNat o.va.toNat o.t
  let b ← readVb o.ty.toNat o.bs o.vb o.t
  let d ← readAddend o
  vectorIssue
  awaitV o.ty.toNat o.vd.toNat
  let c ← ask id
  let f := lift3 o.ty.toNat ((vfmt o.ty.toNat).fma (arithMode c) negProduct negAddend)
  deliverLanes o.ty.toNat o.vd.toNat (List.zipWith (fun (x : Nat × Nat) z => f x.1 x.2 z) (List.zipWith (fun x y => (x, y)) a b) d)

/-- A two-source 16-bit form: va = vd read with t = 0, tb governs vb, no prefix (R89). -/
def half2 (ty : Nat) (f : Core → Nat → Nat → Nat × Fl) (o : HArgs) : Act Unit := do
  let a ← readLanes ty o.vd.toNat 0
  let b ← readLanes ty o.vb.toNat o.tb
  vectorIssue
  awaitV ty o.vd.toNat
  let c ← ask id
  deliverLanes ty o.vd.toNat (List.zipWith (f c) a b)

/-- A one-source 16-bit form, of vb. -/
def half1 (ty : Nat) (f : Core → Nat → Nat × Fl) (o : HArgs) : Act Unit := do
  let b ← readLanes ty o.vb.toNat o.tb
  vectorIssue
  awaitV ty o.vd.toNat
  let c ← ask id
  deliverLanes ty o.vd.toNat (b.map (f c))

/-- FADD (R163). -/
def actFadd (o : VArgs) : Act Unit := vec2 (fun c ty => (vfmt ty).add (arithMode c)) o
def execFadd (o : VArgs) (s : State) : Host.Outcome State Fault Refusal := finish (actFadd o) s

/-- FSUB (R163). -/
def actFsub (o : VArgs) : Act Unit := vec2 (fun c ty => (vfmt ty).sub (arithMode c)) o
def execFsub (o : VArgs) (s : State) : Host.Outcome State Fault Refusal := finish (actFsub o) s

/-- FMUL (R163). -/
def actFmul (o : VArgs) : Act Unit := vec2 (fun c ty => (vfmt ty).mul (arithMode c)) o
def execFmul (o : VArgs) (s : State) : Host.Outcome State Fault Refusal := finish (actFmul o) s

/-- FDIV (R163). -/
def actFdiv (o : VArgs) : Act Unit := vec2 (fun c ty => (vfmt ty).div (arithMode c)) o
def execFdiv (o : VArgs) (s : State) : Host.Outcome State Fault Refusal := finish (actFdiv o) s

/-- FFMA (R163), once rounded. -/
def actFfma (o : VArgs) : Act Unit := vecFma false false o
def execFfma (o : VArgs) (s : State) : Host.Outcome State Fault Refusal := finish (actFfma o) s

/-- FFMS (R163), once rounded. -/
def actFfms (o : VArgs) : Act Unit := vecFma false true o
def execFfms (o : VArgs) (s : State) : Host.Outcome State Fault Refusal := finish (actFfms o) s

/-- FNMA (R163), once rounded. -/
def actFnma (o : VArgs) : Act Unit := vecFma true false o
def execFnma (o : VArgs) (s : State) : Host.Outcome State Fault Refusal := finish (actFnma o) s

/-- FSQRT (R163). -/
def actFsqrt (o : VArgs) : Act Unit := vec1 (fun c ty => (vfmt ty).sqrt (arithMode c)) o
def execFsqrt (o : VArgs) (s : State) : Host.Outcome State Fault Refusal := finish (actFsqrt o) s

/-- FMIN: minimumNumber (R164). -/
def actFmin (o : VArgs) : Act Unit := vec2 (fun _ ty => (vfmt ty).pick false) o
def execFmin (o : VArgs) (s : State) : Host.Outcome State Fault Refusal := finish (actFmin o) s

/-- FMAX: maximumNumber (R164). -/
def actFmax (o : VArgs) : Act Unit := vec2 (fun _ ty => (vfmt ty).pick true) o
def execFmax (o : VArgs) (s : State) : Host.Outcome State Fault Refusal := finish (actFmax o) s

/-- FABS: sign 0, the rest kept (R164). -/
def actFabs (o : VArgs) : Act Unit := vec1 (fun _ ty a => ((vfmt ty).withSign false a, noFlags)) o
def execFabs (o : VArgs) (s : State) : Host.Outcome State Fault Refusal := finish (actFabs o) s

/-- FNEG: sign inverted, the rest kept (R164). -/
def actFneg (o : VArgs) : Act Unit := vec1 (fun _ ty a => ((vfmt ty).withSign (!(vfmt ty).isNeg a) a, noFlags)) o
def execFneg (o : VArgs) (s : State) : Host.Outcome State Fault Refusal := finish (actFneg o) s

/-- FCPYS: the sign of b (R164). -/
def actFcpys (o : VArgs) : Act Unit := vec2 (fun _ ty a b => ((vfmt ty).withSign ((vfmt ty).isNeg b) a, noFlags)) o
def execFcpys (o : VArgs) (s : State) : Host.Outcome State Fault Refusal := finish (actFcpys o) s

/-- FRND: roundToIntegralExact (R164). -/
def actFrnd (o : VArgs) : Act Unit := vec1 (fun c ty => (vfmt ty).toIntegral (arithMode c)) o
def execFrnd (o : VArgs) (s : State) : Host.Outcome State Fault Refusal := finish (actFrnd o) s

/-- The F32 result that the manual leaves free within its bound (R165). -/
def freeSfu (g a : Nat) : Nat := (Config.sfuF32 g (BitVec.ofNat 32 a)).toNat

/-- FRCP (R165). -/
def actFrcp (o : VArgs) : Act Unit := vec1 (fun _ ty => Sfu.eval .rcp (vfmt ty) freeSfu) o
def execFrcp (o : VArgs) (s : State) : Host.Outcome State Fault Refusal := finish (actFrcp o) s

/-- FRSQ (R165). -/
def actFrsq (o : VArgs) : Act Unit := vec1 (fun _ ty => Sfu.eval .rsq (vfmt ty) freeSfu) o
def execFrsq (o : VArgs) (s : State) : Host.Outcome State Fault Refusal := finish (actFrsq o) s

/-- FEX2 (R165). -/
def actFex2 (o : VArgs) : Act Unit := vec1 (fun _ ty => Sfu.eval .ex2 (vfmt ty) freeSfu) o
def execFex2 (o : VArgs) (s : State) : Host.Outcome State Fault Refusal := finish (actFex2 o) s

/-- FLG2 (R165). -/
def actFlg2 (o : VArgs) : Act Unit := vec1 (fun _ ty => Sfu.eval .lg2 (vfmt ty) freeSfu) o
def execFlg2 (o : VArgs) (s : State) : Host.Outcome State Fault Refusal := finish (actFlg2 o) s

/-- FSIN (R165). -/
def actFsin (o : VArgs) : Act Unit := vec1 (fun _ ty => Sfu.eval .sin (vfmt ty) freeSfu) o
def execFsin (o : VArgs) (s : State) : Host.Outcome State Fault Refusal := finish (actFsin o) s

/-- FCOS (R165). -/
def actFcos (o : VArgs) : Act Unit := vec1 (fun _ ty => Sfu.eval .cos (vfmt ty) freeSfu) o
def execFcos (o : VArgs) (s : State) : Host.Outcome State Fault Refusal := finish (actFcos o) s

/-- FTANH (R165). -/
def actFtanh (o : VArgs) : Act Unit := vec1 (fun _ ty => Sfu.eval .tanh (vfmt ty) freeSfu) o
def execFtanh (o : VArgs) (s : State) : Host.Outcome State Fault Refusal := finish (actFtanh o) s

/-- FADD_16 (R89). -/
def actFadd16 (o : HArgs) : Act Unit := half2 0 (fun c => fmtF32.add (arithMode c)) o
def execFadd16 (o : HArgs) (s : State) : Host.Outcome State Fault Refusal := finish (actFadd16 o) s

/-- FSUB_16 (R89). -/
def actFsub16 (o : HArgs) : Act Unit := half2 0 (fun c => fmtF32.sub (arithMode c)) o
def execFsub16 (o : HArgs) (s : State) : Host.Outcome State Fault Refusal := finish (actFsub16 o) s

/-- FMUL_16 (R89). -/
def actFmul16 (o : HArgs) : Act Unit := half2 0 (fun c => fmtF32.mul (arithMode c)) o
def execFmul16 (o : HArgs) (s : State) : Host.Outcome State Fault Refusal := finish (actFmul16 o) s

/-- FMAX_16 (R89). -/
def actFmax16 (o : HArgs) : Act Unit := half2 0 (fun _ => fmtF32.pick true) o
def execFmax16 (o : HArgs) (s : State) : Host.Outcome State Fault Refusal := finish (actFmax16 o) s

/-- FMIN_16 (R89). -/
def actFmin16 (o : HArgs) : Act Unit := half2 0 (fun _ => fmtF32.pick false) o
def execFmin16 (o : HArgs) (s : State) : Host.Outcome State Fault Refusal := finish (actFmin16 o) s

/-- FABS_16: va := vb (R89). -/
def actFabs16 (o : HArgs) : Act Unit := half1 0 (fun _ b => (fmtF32.withSign false b, noFlags)) o
def execFabs16 (o : HArgs) (s : State) : Host.Outcome State Fault Refusal := finish (actFabs16 o) s

/-- FNEG_16: va := vb (R89). -/
def actFneg16 (o : HArgs) : Act Unit := half1 0 (fun _ b => (fmtF32.withSign (!fmtF32.isNeg b) b, noFlags)) o
def execFneg16 (o : HArgs) (s : State) : Host.Outcome State Fault Refusal := finish (actFneg16 o) s

end Sys2Proof.Machine
end

