-- ==== Sys2Proof/Machine/Vmem.lean ====
section
/-!
DEFINITION. Vector memory (R44 to R46, R175 to R182): lane addresses and their checks, loads and stores lane by lane, lane slices, tags.
-/

namespace Sys2Proof.Machine

/-! ### Element accesses (R175, R176) -/

/-- The place of an element at an address, with the checks of R141; where `ordered`, behind the core's own posted atomics too. -/
def elementTarget (a : Word) (n : Nat) (m : Mode) (need : Need) (ordered : Bool := true) : Act Target := do
  aligned a n
  target a n m need 0 ordered

/-- One element loaded: its value, whether the access left the core, whether it is a commit point. -/
def loadElement (a : Word) (n : Nat) : Act (Nat × Bool × Bool) := do
  let t ← elementTarget a n .load .read
  let r ← loadTarget t n 0
  pure (leValue r.1, r.2, t.commits)

/-- The check of one element's store, and whether it is a commit point. -/
def checkElement (a : Word) (bs : List Byte) : Act Bool := do
  let t ← elementTarget a bs.length .store .write
  mayStore a t bs
  takesBytes t bs.length
  pure t.storeCommits

/-- One element stored, its turn taken when it was checked (log 33). -/
def storeElement (a : Word) (bs : List Byte) : Act Unit := do
  let t ← elementTarget a bs.length .store .write false
  storeAt t bs 0

/-- Elements of lanes stored: every one checked in order, then a commit if one needs it, then every one performed in order.
The answer says whether it was a commit point. -/
def storeElements (els : List (Nat × Word × List Byte)) : Act Bool := do
  let cs ← collect (fun (e : Nat × Word × List Byte) => atLane e.1 (checkElement e.2.1 e.2.2)) els
  if cs.any id then commitPoint
  each (fun (e : Nat × Word × List Byte) => atLane e.1 (storeElement e.2.1 e.2.2)) els
  pure (cs.any id)

/-- Elements of lanes loaded in order: values, whether any access left the core, whether any is a commit point. -/
def loadElements (els : List (Nat × Word × Nat)) : Act (List Nat × Bool × Bool) := do
  let rs ← collect (fun (e : Nat × Word × Nat) => atLane e.1 (loadElement e.2.1 e.2.2)) els
  let commits := rs.any fun r => r.2.2
  if commits then commitPoint
  pure (rs.map (·.1), rs.any fun r => r.2.1, commits)

/-- The lanes that are active. -/
def activeLanes (m : Mask) : List Nat := (List.range 128).filter fun i => m.getLsbD i

/-- Values under their places in a list of n, zero elsewhere. -/
def scattered (n : Nat) (keys vals : List Nat) : List Nat :=
  (keys.zip vals).foldl (fun (l : List Nat) x => l.set x.1 x.2) (List.replicate n 0)

/-! ### Vector loads that leave the core (R49, R176) -/

/-- The registers of a destination. -/
def destRegs (ty r : Nat) : List Nat := if isPairTy ty then [r, r + 1] else [r]

/-- A vector destination of a load: written at once where nothing left the core or the sequencer owns it, else empty with its value
in flight. -/
def Core.deliverLoad (c : Core) (ty : Nat) (vd : Nat) (left : Bool) (vals : List Nat) : Core :=
  let new := c.writeLanes ty vd vals
  let regs := destRegs ty (c.vname vd)
  if !left || c.repOwns true (c.vname vd) then new
  else
    { c with
      vfull := regs.foldl bitClear c.vfull
      inflight := c.inflight ++ [⟨none, regs.map fun k => (k, new.v k)⟩] }

/-- The lanes of a vector load delivered, and the retirement. -/
def finishLoad (ty vd : Nat) (left commits : Bool) (vals : List Nat) : Act Unit := do
  change fun c => c.deliverLoad ty vd (left && !commits) vals
  retireAs commits

/-- A vector load of one element a lane, at each lane's address. -/
def laneLoad (ty : Nat) (vd : BitVec 5) (ea : Nat → Word) : Act Unit := do
  awaitV ty vd.toNat
  let m ← ask activeMask
  let lanes := activeLanes m
  let r ← loadElements (lanes.map fun i => (i, ea i, laneBytes ty))
  finishLoad ty vd.toNat r.2.1 r.2.2 (scattered 128 lanes r.1)

/-- A vector store of one element a lane. -/
def laneStore (ty : Nat) (vd : BitVec 5) (ea : Nat → Word) : Act Unit := do
  let data ← readLanes ty vd.toNat 0
  let m ← ask activeMask
  let commits ← storeElements ((activeLanes m).map fun i => (i, ea i, leBytes (laneBytes ty) (data.getD i 0)))
  retireAs commits

/-! ### VLD, VST, VLDS, VSTS (R177) -/

/-- The address of lane i: consecutive elements from an index, or a stride. -/
def eaIndexed (ty : Nat) (base index : Word) (i : Nat) : Word := base + (index + BitVec.ofNat 64 i) * BitVec.ofNat 64 (laneBytes ty)
def eaStrided (base stride : Word) (i : Nat) : Word := base + BitVec.ofNat 64 i * stride

/-- The two scalars that a vector memory instruction reads. -/
def readBases (o : VArgs) : Act (Word × Word) := do
  let a ← readS o.va o.t
  let b ← readS o.vb o.t
  vectorIssue
  pure (a, b)

/-- VLD (R177). -/
def actVld (o : VArgs) : Act Unit := do
  let x ← readBases o
  laneLoad o.ty.toNat o.vd (eaIndexed o.ty.toNat x.1 x.2)
def execVld (o : VArgs) (s : State) : Host.Outcome State Fault Refusal := finish (actVld o) s

/-- VLDS (R177). -/
def actVlds (o : VArgs) : Act Unit := do
  let x ← readBases o
  laneLoad o.ty.toNat o.vd (eaStrided x.1 x.2)
def execVlds (o : VArgs) (s : State) : Host.Outcome State Fault Refusal := finish (actVlds o) s

/-- VST (R177). -/
def actVst (o : VArgs) : Act Unit := do
  let x ← readBases o
  laneStore o.ty.toNat o.vd (eaIndexed o.ty.toNat x.1 x.2)
def execVst (o : VArgs) (s : State) : Host.Outcome State Fault Refusal := finish (actVst o) s

/-- VSTS (R177). -/
def actVsts (o : VArgs) : Act Unit := do
  let x ← readBases o
  laneStore o.ty.toNat o.vd (eaStrided x.1 x.2)
def execVsts (o : VArgs) (s : State) : Host.Outcome State Fault Refusal := finish (actVsts o) s

/-! ### Gathers and scatters (R178) -/

/-- The base and the lanes' offsets, 32 bits each or 64 for a pair type. An offset that bs broadcasts is the scalar's bits 31:0 under a packed
16-bit type too, since an offset is no packed element (R83, R178). DEDUCED (log 16). -/
def readOffsets (o : VArgs) : Act (Word × List Nat) := do
  let a ← readS o.va o.t
  let b ← if o.bs = 1 then do
      let x ← readS o.vb o.t
      pure (List.replicate 128 (if isPairTy o.ty.toNat then x.toNat else x.toNat % 2 ^ 32))
    else readLanes o.ty.toNat o.vb.toNat o.t
  vectorIssue
  pure (a, b)

/-- VGATH (R178). -/
def actVgath (o : VArgs) : Act Unit := do
  let x ← readOffsets o
  laneLoad o.ty.toNat o.vd fun i => x.1 + BitVec.ofNat 64 (x.2.getD i 0)
def execVgath (o : VArgs) (s : State) : Host.Outcome State Fault Refusal := finish (actVgath o) s

/-- VSCAT (R178). -/
def actVscat (o : VArgs) : Act Unit := do
  let x ← readOffsets o
  laneStore o.ty.toNat o.vd fun i => x.1 + BitVec.ofNat 64 (x.2.getD i 0)
def execVscat (o : VArgs) (s : State) : Host.Outcome State Fault Refusal := finish (actVscat o) s

/-! ### VLDT (R179) -/

/-- The address of destination element e: row e mod 16, column e / 16. -/
def eaTransposed (base stride : Word) (bytes e : Nat) : Word :=
  base + BitVec.ofNat 64 (e % 16) * stride + BitVec.ofNat 64 (e / 16 * bytes)

/-- The lane that holds an element. -/
def laneOf (ty e : Nat) : Nat := if isPacked ty then e / 2 else e

/-- VLDT (R179). -/
def actVldt (o : VArgs) : Act Unit := do
  let x ← readBases o
  let ty := o.ty.toNat
  awaitV ty o.vd.toNat
  let m ← ask activeMask
  let els := (List.range (elemCount ty)).filter fun e => m.getLsbD (laneOf ty e)
  let bytes := elemBits ty / 8
  let r ← loadElements (els.map fun e => (laneOf ty e, eaTransposed x.1 x.2 bytes e, bytes))
  finishLoad ty o.vd.toNat r.2.1 r.2.2 (lanesOf ty (scattered (elemCount ty) els r.1))
where
  /-- Lanes from elements, two 16-bit ones a lane. -/
  lanesOf (ty : Nat) (els : List Nat) : List Nat :=
    if isPacked ty then (List.range 128).map fun i => els.getD (2 * i) 0 + els.getD (2 * i + 1) 0 * 2 ^ 16 else els
def execVldt (o : VArgs) (s : State) : Host.Outcome State Fault Refusal := finish (actVldt o) s

/-! ### Lane slices (R44 to R46, R180) -/

/-- The scratchpad offset of byte o of lane i's slice (R46). -/
def sliceOffset (i o : Nat) : Nat := 0xE0000 + 512 * (o / 4) + 4 * i + o % 4

/-- The checks of R45 on a lane's address. -/
def checkSlice (o n : Nat) : Act Unit :=
  let a : Word := BitVec.ofNat 64 (2 ^ 63 + o)
  if o % n ≠ 0 then fault 0x03 a else if 1024 ≤ o then fault 0x04 a else pure ()

/-- The physical words of a slice element. -/
def sliceWords (s : State) (i o n : Nat) : List Nat :=
  (List.range (n / 4)).map fun w => scratch s s.cid (sliceOffset i (o + 4 * w))

/-- An element of lane i's slice loaded. -/
def loadSlice (i o n : Nat) : Act Nat := atLane i do
  checkSlice o n
  let ps ← askS fun s => sliceWords s i o n
  each (fun p => readable p (BitVec.ofNat 64 (2 ^ 63 + o))) ps
  askS fun s => leValue (ps.flatMap fun p => physBytes s p 4)

/-- The check of an element of lane i's slice that is to be stored (R45, R175). -/
def checkSliceStore (i o n : Nat) : Act Unit := atLane i do
  checkSlice o n
  let ps ← askS fun s => sliceWords s i o n
  each (fun p => takesBytes (.sram p true (BitVec.ofNat 64 (2 ^ 63 + o))) 4) ps

/-- An element of lane i's slice stored. -/
def storeSlice (i o n v : Nat) : Act Unit := atLane i do
  let ps ← askS fun s => sliceWords s i o n
  each (fun (x : Nat × Nat) =>
    homeStore x.1 (BitVec.ofNat 64 (2 ^ 63 + o)) (placed (x.1 % 64) (leBytes 4 (v / 2 ^ (32 * x.2)))) (byteMask (x.1 % 64) 4) 0 0)
    (ps.zip (List.range ps.length))

/-- A lane-slice access takes its turn at the core's own scratchpad (R253). -/
def behindSlices : Act Unit := do behindSram (← askS fun s => scratch s s.cid 0) .load

/-- VLDL (R180). -/
def actVldl (o : VArgs) : Act Unit := do
  let ty := o.ty.toNat
  let b ← readV o.vb.toNat o.t
  vectorIssue
  awaitV ty o.vd.toNat
  let m ← ask activeMask
  let lanes := activeLanes m
  behindSlices
  let vals ← collect (fun i => loadSlice i ((VReg.nats b).getD i 0) (laneBytes ty)) lanes
  finishLoad ty o.vd.toNat false false (scattered 128 lanes vals)
def execVldl (o : VArgs) (s : State) : Host.Outcome State Fault Refusal := finish (actVldl o) s

/-- VSTL (R180). -/
def actVstl (o : VArgs) : Act Unit := do
  let ty := o.ty.toNat
  let b ← readV o.vb.toNat o.t
  let data ← readLanes ty o.vd.toNat 0
  vectorIssue
  let m ← ask activeMask
  each (fun i => checkSliceStore i ((VReg.nats b).getD i 0) (laneBytes ty)) (activeLanes m)
  behindSlices
  each (fun i => storeSlice i ((VReg.nats b).getD i 0) (laneBytes ty) (data.getD i 0)) (activeLanes m)
  retire
def execVstl (o : VArgs) (s : State) : Host.Outcome State Fault Refusal := finish (actVstl o) s

/-! ### Whole blocks and their tags (R175, R181, R182) -/

/-- An address of a tag-reading or tag-writing instruction lies in a space that holds tags (R175). -/
def holdsTags (a : Word) : Act Unit :=
  require (!(a.getLsbD 63 && (spaceOf a = 5 || spaceOf a = 6))) (.trap (trapAt 0x05 a 12))

/-- The place of n bytes of a block for an instruction that reads or writes tags. -/
def tagTarget (a : Word) (n : Nat) (m : Mode) (need : Need) (ordered : Bool := true) : Act Target := do
  holdsTags a
  target a n m need 0 ordered

/-- A block with its tag, as a load: whether it left the core. -/
def readBlock (t : Target) : Act (Block × Bool) :=
  match t with
  | .sram p own a => do
    readable p a
    let b ← askS fun s => physBlock s p
    pure (b, !own)
  | .home p _ a => do
    readable p a
    let b ← askS fun s => physBlock s p
    pure (b, true)
  | .line a x => loadBlock a x (BitVec.allOnes 64) true 0
  | .control _ | .debug _ => fault 0x05

/-- Data bytes and tag bytes of one block written together. -/
def writeBlock (t : Target) (data : BitVec 512) (mask : BitVec 64) (tag : Tag) (tagMask : BitVec 5) : Act Unit :=
  match t with
  | .sram p _ a => homeStore p a data mask tag tagMask
  | .home p _ a => do
    change fun c => { c with lines := c.lines.filter fun l => !(l.addr = blockAddr a && l.isClean) }
    homeStore p a data mask tag tagMask
  | .line a x => storeBytes a x data mask tag tagMask 0
  | .control _ | .debug _ => fault 0x05

/-- The tag of a block, without its data where L1 holds the tag. -/
def readTag (t : Target) : Act (Tag × Bool) :=
  match t with
  | .line a x => do
    let r ← loadBlock a x 0 true 0
    pure (r.1.tag, r.2)
  | t => do
    let r ← readBlock t
    pure (r.1.tag, r.2)

/-- VTAG (R181). -/
def actVtag (o : VArgs) : Act Unit := do
  let a ← readS o.va o.t
  vectorIssue
  awaitS o.vd
  let t ← tagTarget a 1 .load .read
  let r ← readTag t
  if t.commits then commitPoint
  let v : Word := r.1.setWidth 64
  if r.2 && !t.commits && !a.getLsbD 63 && !(← ask fun c => c.repOwns false o.vd.toNat) then
    change fun c => c.expect o.vd.toNat v
  else writeS o.vd v
  retireAs t.commits
def execVtag (o : VArgs) (s : State) : Host.Outcome State Fault Refusal := finish (actVtag o) s

/-- VSTAG (R181). -/
def actVstag (o : VArgs) : Act Unit := do
  let a ← readS o.va o.t
  let b ← readS o.vb o.t
  vectorIssue
  let t ← tagTarget a 1 .store .write
  if t.commits then commitPoint
  writeBlock t 0 0 (b.setWidth 40) (BitVec.allOnes 5)
  retireAs t.commits
def execVstag (o : VArgs) (s : State) : Host.Outcome State Fault Refusal := finish (actVstag o) s

end Sys2Proof.Machine
end

