-- ==== Sys2Proof/Machine/Vint.lean ====
section
/-!
DEFINITION. Integer vector arithmetic (VINT, R166) and the integer 16-bit forms (R89).
-/

namespace Sys2Proof.Machine

/-- The integer format of an integer type (R17): 4 I32, 5 N32, 6 I16, 7 I64. -/
def vint (ty : Nat) : IFmt :=
  match ty with
  | 5 => ⟨false, 32⟩
  | 6 => ⟨true, 16⟩
  | 7 => ⟨true, 64⟩
  | _ => ⟨true, 32⟩

/-- An element of a type as a signed integer, whatever the type's signedness, and an integer's low bits as an element. -/
def sx (ty a : Nat) : Int := IFmt.read ⟨true, (vint ty).width⟩ a
def low (ty : Nat) (x : Int) : Nat := (vint ty).wrap x

/-- A shift amount: the low Log2(w) bits (R166). -/
def amount (ty b : Nat) : Nat := b % (vint ty).width

/-- One bits, and leading zero bits, of an element of w bits. -/
def ones (w a : Nat) : Nat := ((List.range w).filter fun k => a.testBit k).length
def leading (w a : Nat) : Nat := if a % 2 ^ w = 0 then w else w - 1 - (a % 2 ^ w).log2

/-- An integer result: no flag (R166). -/
def plain (x : Nat) : Nat × Fl := (x, noFlags)

/-- IADD (R166). -/
def elIadd (ty a b : Nat) : Nat := low ty ((a : Int) + b)
def actIadd (o : VArgs) : Act Unit := vec2 (fun _ ty a b => plain (elIadd ty a b)) o
def execIadd (o : VArgs) (s : State) : Host.Outcome State Fault Refusal := finish (actIadd o) s

/-- ISUB (R166). -/
def elIsub (ty a b : Nat) : Nat := low ty ((a : Int) - b)
def actIsub (o : VArgs) : Act Unit := vec2 (fun _ ty a b => plain (elIsub ty a b)) o
def execIsub (o : VArgs) (s : State) : Host.Outcome State Fault Refusal := finish (actIsub o) s

/-- IMUL (R166). -/
def elImul (ty a b : Nat) : Nat := low ty ((a : Int) * b)
def actImul (o : VArgs) : Act Unit := vec2 (fun _ ty a b => plain (elImul ty a b)) o
def execImul (o : VArgs) (s : State) : Host.Outcome State Fault Refusal := finish (actImul o) s

/-- IMULH (R166). -/
def elImulh (ty a b : Nat) : Nat := low ty (sx ty a * sx ty b / 2 ^ (vint ty).width)
def actImulh (o : VArgs) : Act Unit := vec2 (fun _ ty a b => plain (elImulh ty a b)) o
def execImulh (o : VArgs) (s : State) : Host.Outcome State Fault Refusal := finish (actImulh o) s

/-- IMULHU (R166). -/
def elImulhu (ty a b : Nat) : Nat := a * b / 2 ^ (vint ty).width
def actImulhu (o : VArgs) : Act Unit := vec2 (fun _ ty a b => plain (elImulhu ty a b)) o
def execImulhu (o : VArgs) (s : State) : Host.Outcome State Fault Refusal := finish (actImulhu o) s

/-- IAND (R166). -/
def elIand (ty a b : Nat) : Nat := Nat.land a b
def actIand (o : VArgs) : Act Unit := vec2 (fun _ ty a b => plain (elIand ty a b)) o
def execIand (o : VArgs) (s : State) : Host.Outcome State Fault Refusal := finish (actIand o) s

/-- IOR (R166). -/
def elIor (ty a b : Nat) : Nat := Nat.lor a b
def actIor (o : VArgs) : Act Unit := vec2 (fun _ ty a b => plain (elIor ty a b)) o
def execIor (o : VArgs) (s : State) : Host.Outcome State Fault Refusal := finish (actIor o) s

/-- IXOR (R166). -/
def elIxor (ty a b : Nat) : Nat := Nat.xor a b
def actIxor (o : VArgs) : Act Unit := vec2 (fun _ ty a b => plain (elIxor ty a b)) o
def execIxor (o : VArgs) (s : State) : Host.Outcome State Fault Refusal := finish (actIxor o) s

/-- ISHL (R166). -/
def elIshl (ty a b : Nat) : Nat := low ty ((a * 2 ^ amount ty b : Nat) : Int)
def actIshl (o : VArgs) : Act Unit := vec2 (fun _ ty a b => plain (elIshl ty a b)) o
def execIshl (o : VArgs) (s : State) : Host.Outcome State Fault Refusal := finish (actIshl o) s

/-- ISHR (R166). -/
def elIshr (ty a b : Nat) : Nat := a / 2 ^ amount ty b
def actIshr (o : VArgs) : Act Unit := vec2 (fun _ ty a b => plain (elIshr ty a b)) o
def execIshr (o : VArgs) (s : State) : Host.Outcome State Fault Refusal := finish (actIshr o) s

/-- ISAR (R166). -/
def elIsar (ty a b : Nat) : Nat := low ty (sx ty a / 2 ^ amount ty b)
def actIsar (o : VArgs) : Act Unit := vec2 (fun _ ty a b => plain (elIsar ty a b)) o
def execIsar (o : VArgs) (s : State) : Host.Outcome State Fault Refusal := finish (actIsar o) s

/-- IMIN (R166). -/
def elImin (ty a b : Nat) : Nat := if sx ty b < sx ty a then b else a
def actImin (o : VArgs) : Act Unit := vec2 (fun _ ty a b => plain (elImin ty a b)) o
def execImin (o : VArgs) (s : State) : Host.Outcome State Fault Refusal := finish (actImin o) s

/-- IMAX (R166). -/
def elImax (ty a b : Nat) : Nat := if sx ty a < sx ty b then b else a
def actImax (o : VArgs) : Act Unit := vec2 (fun _ ty a b => plain (elImax ty a b)) o
def execImax (o : VArgs) (s : State) : Host.Outcome State Fault Refusal := finish (actImax o) s

/-- IADDS (R166). -/
def elIadds (ty a b : Nat) : Nat := low ty ((vint ty).clamp ((vint ty).read a + (vint ty).read b))
def actIadds (o : VArgs) : Act Unit := vec2 (fun _ ty a b => plain (elIadds ty a b)) o
def execIadds (o : VArgs) (s : State) : Host.Outcome State Fault Refusal := finish (actIadds o) s

/-- ISUBS (R166). -/
def elIsubs (ty a b : Nat) : Nat := low ty ((vint ty).clamp ((vint ty).read a - (vint ty).read b))
def actIsubs (o : VArgs) : Act Unit := vec2 (fun _ ty a b => plain (elIsubs ty a b)) o
def execIsubs (o : VArgs) (s : State) : Host.Outcome State Fault Refusal := finish (actIsubs o) s

/-- IMINU (R166). -/
def elIminu (ty a b : Nat) : Nat := if b < a then b else a
def actIminu (o : VArgs) : Act Unit := vec2 (fun _ ty a b => plain (elIminu ty a b)) o
def execIminu (o : VArgs) (s : State) : Host.Outcome State Fault Refusal := finish (actIminu o) s

/-- IMAXU (R166). -/
def elImaxu (ty a b : Nat) : Nat := if a < b then b else a
def actImaxu (o : VArgs) : Act Unit := vec2 (fun _ ty a b => plain (elImaxu ty a b)) o
def execImaxu (o : VArgs) (s : State) : Host.Outcome State Fault Refusal := finish (actImaxu o) s

/-- IABS (R166). -/
def elIabs (ty a : Nat) : Nat := if (vint ty).sgn then low ty (sx ty a).natAbs else a
def actIabs (o : VArgs) : Act Unit := vec1 (fun _ ty a => plain (elIabs ty a)) o
def execIabs (o : VArgs) (s : State) : Host.Outcome State Fault Refusal := finish (actIabs o) s

/-- IPOPC (R166). -/
def elIpopc (ty a : Nat) : Nat := ones (vint ty).width a
def actIpopc (o : VArgs) : Act Unit := vec1 (fun _ ty a => plain (elIpopc ty a)) o
def execIpopc (o : VArgs) (s : State) : Host.Outcome State Fault Refusal := finish (actIpopc o) s

/-- ICLZ (R166). -/
def elIclz (ty a : Nat) : Nat := leading (vint ty).width a
def actIclz (o : VArgs) : Act Unit := vec1 (fun _ ty a => plain (elIclz ty a)) o
def execIclz (o : VArgs) (s : State) : Host.Outcome State Fault Refusal := finish (actIclz o) s

/-- VMOV_16: IOR with va = vb (R89). -/
def actVmov16 (o : HArgs) : Act Unit := half1 4 (fun _ b => plain b) o
def execVmov16 (o : HArgs) (s : State) : Host.Outcome State Fault Refusal := finish (actVmov16 o) s

/-- IADD_16 (R89). -/
def actIadd16 (o : HArgs) : Act Unit := half2 4 (fun _ a b => plain (elIadd 4 a b)) o
def execIadd16 (o : HArgs) (s : State) : Host.Outcome State Fault Refusal := finish (actIadd16 o) s

/-- ISUB_16 (R89). -/
def actIsub16 (o : HArgs) : Act Unit := half2 4 (fun _ a b => plain (elIsub 4 a b)) o
def execIsub16 (o : HArgs) (s : State) : Host.Outcome State Fault Refusal := finish (actIsub16 o) s

/-- IAND_16 (R89). -/
def actIand16 (o : HArgs) : Act Unit := half2 4 (fun _ a b => plain (elIand 4 a b)) o
def execIand16 (o : HArgs) (s : State) : Host.Outcome State Fault Refusal := finish (actIand16 o) s

/-- IOR_16 (R89). -/
def actIor16 (o : HArgs) : Act Unit := half2 4 (fun _ a b => plain (elIor 4 a b)) o
def execIor16 (o : HArgs) (s : State) : Host.Outcome State Fault Refusal := finish (actIor16 o) s

/-- IXOR_16 (R89). -/
def actIxor16 (o : HArgs) : Act Unit := half2 4 (fun _ a b => plain (elIxor 4 a b)) o
def execIxor16 (o : HArgs) (s : State) : Host.Outcome State Fault Refusal := finish (actIxor16 o) s

/-- ISHL_16 (R89). -/
def actIshl16 (o : HArgs) : Act Unit := half2 4 (fun _ a b => plain (elIshl 4 a b)) o
def execIshl16 (o : HArgs) (s : State) : Host.Outcome State Fault Refusal := finish (actIshl16 o) s

/-- ISHR_16 (R89). -/
def actIshr16 (o : HArgs) : Act Unit := half2 4 (fun _ a b => plain (elIshr 4 a b)) o
def execIshr16 (o : HArgs) (s : State) : Host.Outcome State Fault Refusal := finish (actIshr16 o) s

/-- IMUL_16 (R89). -/
def actImul16 (o : HArgs) : Act Unit := half2 4 (fun _ a b => plain (elImul 4 a b)) o
def execImul16 (o : HArgs) (s : State) : Host.Outcome State Fault Refusal := finish (actImul16 o) s

end Sys2Proof.Machine
end

