-- ==== Sys2Proof/Machine/Vcmp.lean ====
section
/-!
DEFINITION. Comparisons, classification and mask operations (VCMP, R167, R168).
-/

namespace Sys2Proof.Machine

/-- A comparison: bit i of a mask and lane i's flags (R167). -/
def compareOp (f : Nat → Nat → Nat → Bool × Fl) (o : VArgs) : Act Unit := do
  let a ← readLanes o.ty.toNat o.va.toNat o.t
  let b ← readVb o.ty.toNat o.bs o.vb o.t
  vectorIssue
  let rs := List.zipWith (f o.ty.toNat) a b
  change fun c => (c.raise (rs.map (·.2))).writeMask o.vd.toNat (maskFrom (rs.map (·.1)))
  retire

/-- A floating comparison: nv for a signalling NaN, or for any NaN (R167). -/
def fcompare (anyNan : Bool) (p : Num → Num → Bool) (ty a b : Nat) : Bool × Fl :=
  let x := (vfmt ty).read a
  let y := (vfmt ty).read b
  (p x y, { nv := if anyNan then x.isNan || y.isNan else x.isSnan || y.isSnan })

/-- An integer comparison: no flag. -/
def icompare (p : Nat → Nat → Nat → Bool) (ty a b : Nat) : Bool × Fl := (p ty a b, noFlags)

/-- FCEQ (R167). -/
def actFceq (o : VArgs) : Act Unit := compareOp (fcompare false (fun x y => x.eq y)) o
def execFceq (o : VArgs) (s : State) : Host.Outcome State Fault Refusal := finish (actFceq o) s

/-- FCLT (R167). -/
def actFclt (o : VArgs) : Act Unit := compareOp (fcompare true (fun x y => x.lt y)) o
def execFclt (o : VArgs) (s : State) : Host.Outcome State Fault Refusal := finish (actFclt o) s

/-- FCLE (R167). -/
def actFcle (o : VArgs) : Act Unit := compareOp (fcompare true (fun x y => x.lt y || x.eq y)) o
def execFcle (o : VArgs) (s : State) : Host.Outcome State Fault Refusal := finish (actFcle o) s

/-- FCUN (R167). -/
def actFcun (o : VArgs) : Act Unit := compareOp (fcompare false (fun x y => x.isNan || y.isNan)) o
def execFcun (o : VArgs) (s : State) : Host.Outcome State Fault Refusal := finish (actFcun o) s

/-- FCNE (R167). -/
def actFcne (o : VArgs) : Act Unit := compareOp (fcompare false (fun x y => !x.eq y)) o
def execFcne (o : VArgs) (s : State) : Host.Outcome State Fault Refusal := finish (actFcne o) s

/-- ICEQ (R167). -/
def actIceq (o : VArgs) : Act Unit := compareOp (icompare (fun _ a b => a == b)) o
def execIceq (o : VArgs) (s : State) : Host.Outcome State Fault Refusal := finish (actIceq o) s

/-- ICLT (R167). -/
def actIclt (o : VArgs) : Act Unit := compareOp (icompare (fun ty a b => decide (sx ty a < sx ty b))) o
def execIclt (o : VArgs) (s : State) : Host.Outcome State Fault Refusal := finish (actIclt o) s

/-- ICLTU (R167). -/
def actIcltu (o : VArgs) : Act Unit := compareOp (icompare (fun _ a b => decide (a < b))) o
def execIcltu (o : VArgs) (s : State) : Host.Outcome State Fault Refusal := finish (actIcltu o) s

/-- ICNE (R167). -/
def actIcne (o : VArgs) : Act Unit := compareOp (icompare (fun _ a b => a != b)) o
def execIcne (o : VArgs) (s : State) : Host.Outcome State Fault Refusal := finish (actIcne o) s

/-- The class code of a pattern: one of bits 9:0 (R168). -/
def classOf (f : Fmt) (a : Nat) : Nat :=
  match f.read a with
  | .nan s => if s then 2 ^ 8 else 2 ^ 9
  | .inf n => if n then 2 ^ 0 else 2 ^ 7
  | .fin n m e =>
    if m = 0 then (if n then 2 ^ 3 else 2 ^ 4)
    else if expOf m e < f.emin then (if n then 2 ^ 2 else 2 ^ 5)
    else if n then 2 ^ 1 else 2 ^ 6

/-- FCLASS (R168). -/
def actFclass (o : VArgs) : Act Unit := vec1 (fun _ ty a => (classOf (vfmt ty) a, noFlags)) o
def execFclass (o : VArgs) (s : State) : Host.Outcome State Fault Refusal := finish (actFclass o) s

/-- A two-source mask operation (R167, R98). -/
def maskOp2 (f : Mask → Mask → Mask) (o : VArgs) : Act Unit := do
  vectorIssue
  change fun c => c.writeMask o.vd.toNat (f (maskOrFlags c o.va.toNat) (maskOrFlags c o.vb.toNat))
  retire

/-- MAND (R167). -/
def actMand (o : VArgs) : Act Unit := maskOp2 (fun a b => a &&& b) o
def execMand (o : VArgs) (s : State) : Host.Outcome State Fault Refusal := finish (actMand o) s

/-- MOR (R167). -/
def actMor (o : VArgs) : Act Unit := maskOp2 (fun a b => a ||| b) o
def execMor (o : VArgs) (s : State) : Host.Outcome State Fault Refusal := finish (actMor o) s

/-- MXOR (R167). -/
def actMxor (o : VArgs) : Act Unit := maskOp2 (fun a b => a ^^^ b) o
def execMxor (o : VArgs) (s : State) : Host.Outcome State Fault Refusal := finish (actMxor o) s

/-- MANDN (R167). -/
def actMandn (o : VArgs) : Act Unit := maskOp2 (fun a b => a &&& ~~~ b) o
def execMandn (o : VArgs) (s : State) : Host.Outcome State Fault Refusal := finish (actMandn o) s

/-- MNOT (R167). -/
def actMnot (o : VArgs) : Act Unit := do
  vectorIssue
  change fun c => c.writeMask o.vd.toNat (~~~ maskOrFlags c o.va.toNat)
  retire
def execMnot (o : VArgs) (s : State) : Host.Outcome State Fault Refusal := finish (actMnot o) s

end Sys2Proof.Machine
end

