-- ==== Sys2Proof/Machine/Vcvt.lean ====
section
/-!
DEFINITION. Conversions (VCVT, R97, R169 to R171).
-/

namespace Sys2Proof.Machine

/-- The element of a conversion code (R97). -/
inductive Elem where
  | flt (f : Fmt)
  | int (t : IFmt)
  deriving DecidableEq, Repr

/-- The element that a code names. -/
def elemOf (code : Nat) : Elem :=
  match code with
  | 0 => .flt fmtF32
  | 1 => .flt fmtF64
  | 2 => .flt fmtB16
  | 3 => .flt fmtF16
  | 4 => .int ⟨true, 32⟩
  | 5 => .int ⟨false, 32⟩
  | 6 => .int ⟨true, 16⟩
  | 7 => .int ⟨true, 64⟩
  | 8 => .flt fmtF19
  | 9 => .flt fmtE4M3
  | 10 => .flt fmtE5M2
  | 11 => .flt fmtE3M4
  | 12 => .flt fmtE2M1
  | 13 => .flt fmtE2M3
  | 14 => .flt fmtE3M2
  | 15 => .int ⟨true, 8⟩
  | 16 => .int ⟨false, 8⟩
  | 17 => .int ⟨false, 16⟩
  | _ => .int ⟨true, 4⟩

/-- Bits from one field to the next, and how many fields a lane holds (R169). -/
def fieldBits (code : Nat) : Nat :=
  if code = 1 || code = 7 then 64
  else if code = 2 || code = 3 || code = 6 || code = 17 then 16
  else if code = 12 || code = 18 then 4
  else if code = 0 || code = 4 || code = 5 || code = 8 then 32
  else 8
def fieldCount (code : Nat) : Nat :=
  match fieldBits code with
  | 16 => 2
  | 8 => 4
  | 4 => 8
  | _ => 1

/-- The lanes' type that holds a code's elements: a pair or a single register. -/
def codeTy (code : Nat) : Nat := if fieldBits code = 64 then 1 else 0

/-- Field f of a lane: the unused top bits of a 6-bit element left out. -/
def fieldOf (code lane f : Nat) : Nat :=
  let x := lane / 2 ^ (fieldBits code * f) % 2 ^ fieldBits code
  if code = 13 || code = 14 then x % 64 else x

/-- One element converted (R39, R40, R170). -/
def convertElem (src dst : Elem) (rm : Rm) (sat : Bool) (x : Nat) : Nat × Fl :=
  match src, dst with
  | .flt f, .flt g => g.convert rm sat (f.read x)
  | .flt f, .int t => t.convert rm (f.read x)
  | .int t, .flt g => g.convert rm sat (Num.ofInt (t.read x))
  | .int t, .int u => (u.wrap (if sat then u.clamp (t.read x) else t.read x), noFlags)

/-- The value that a source element folds into CREG (R171). -/
def foldValue (src : Elem) (x : Nat) : List Num :=
  match src with
  | .flt f => [f.read x]
  | .int _ => []

/-- One lane converted: fields 0 to n − 1, the rest zero (R169). `base` is its element index base. -/
def convertLane (c : Core) (src dst : Nat) (sat : Bool) (base lane : Nat) : Nat × Fl :=
  (List.range (min (fieldCount src) (fieldCount dst))).foldl (fun (acc : Nat × Fl) f =>
    let r := convertElem (elemOf src) (elemOf dst) (convMode c (8 * base + f)) sat (fieldOf src lane f)
    (acc.1 + r.1 * 2 ^ (fieldBits dst * f), acc.2.or r.2)) (0, noFlags)

/-- The element index bases: the lane numbers, or c's lanes where the mode is stochastic and use-c = 1 (R170). -/
def convBases : Act (List Nat) := do
  let c ← ask id
  if modeNumber c = 5 && (prefixOf c).usec then
    let v ← readV (prefixOf c).c.toNat 0
    pure (VReg.nats v)
  else pure (List.range 128)

/-- CVT (R169 to R171). -/
def actCvt (o : CvArgs) : Act Unit := do
  let src := (Legal.cvtSource o).toNat
  let dst := o.vb.toNat
  let a ← readLanes (codeTy src) o.va.toNat o.t
  vectorIssue
  let bases ← convBases
  awaitV (codeTy dst) o.vd.toNat
  let c ← ask id
  let rs := List.zipWith (convertLane c src dst (o.sat = 1)) bases a
  if o.crest = 1 then
    change fun c => c.fold (a.map fun lane =>
      (List.range (min (fieldCount src) (fieldCount dst))).flatMap fun f => foldValue (elemOf src) (fieldOf src lane f))
  deliverLanes (codeTy dst) o.vd.toNat rs
def execCvt (o : CvArgs) (s : State) : Host.Outcome State Fault Refusal := finish (actCvt o) s

/-- CVTS (R169): one value's conversion in every field of every active lane; a stochastic one rounds each field by its own word,
with base 0 (R170, DEDUCED log 9). -/
def actCvts (o : CvArgs) : Act Unit := do
  let src := (Legal.cvtSource o).toNat
  let dst := o.vb.toNat
  let x ← readS o.va o.t
  vectorIssue
  awaitV (codeTy dst) o.vd.toNat
  let c ← ask id
  let lane := (List.range (fieldCount dst)).foldl (fun (acc : Nat × Fl) f =>
    let r := convertElem (elemOf src) (elemOf dst) (convMode c f) (o.sat = 1) (fieldOf src x.toNat 0)
    (acc.1 + r.1 * 2 ^ (fieldBits dst * f), acc.2.or r.2)) (0, noFlags)
  if o.crest = 1 then
    change fun c => c.fold (oneValue c (foldValue (elemOf src) (fieldOf src x.toNat 0)))
  deliverLanes (codeTy dst) o.vd.toNat (List.replicate 128 lane)
where
  /-- A value folded once, if any lane is active. -/
  oneValue (c : Core) (v : List Num) : List (List Num) :=
    (List.range 128).map fun i => if lowestActive (activeMask c) = some i then v else []
def execCvts (o : CvArgs) (s : State) : Host.Outcome State Fault Refusal := finish (actCvts o) s

end Sys2Proof.Machine
end

