-- ==== Sys2Proof/Machine/Vred.lean ====
section
/-!
DEFINITION. Reductions, scans and votes (VRED, R43, R161, R172, R173) and permutes (VPERM, R174).
-/

namespace Sys2Proof.Machine

/-- The elements of lanes in order, two of a packed lane (R159). -/
def elements (ty : Nat) (lanes : List Nat) : List Nat :=
  if isPacked ty then lanes.flatMap fun x => [x % 2 ^ 16, x / 2 ^ 16] else lanes

/-- Lanes from elements. -/
def packElements : List Nat → List Nat
  | a :: b :: rest => (a + b * 2 ^ 16) :: packElements rest
  | _ => []
def lanesOf (ty : Nat) (els : List Nat) : List Nat := if isPacked ty then packElements els else els

/-- Each element's activity: its lane's (R159). -/
def activeElements (ty : Nat) (m : Mask) : List Bool :=
  if isPacked ty then (laneBits m).flatMap fun b => [b, b] else laneBits m

/-- A scalar result extended to 64 bits (R172). -/
def scalarOf (ty : Nat) (x : Nat) : Word :=
  match ty with
  | 4 => (BitVec.ofNat 32 x).signExtend 64
  | 6 => (BitVec.ofNat 16 x).signExtend 64
  | _ => BitVec.ofNat 64 x

/-- A floating type. -/
def isFloatTy (ty : Nat) : Bool := ty < 4

/-- One level of the pairwise tree: empty leaves pass, pairs add (R43). -/
def treeLevel (f : Nat → Nat → Nat × Fl) : List (Option Nat) → List (Option Nat) × Fl
  | a :: b :: rest =>
    let r := treeLevel f rest
    match a, b with
    | none, b => (b :: r.1, r.2)
    | a, none => (a :: r.1, r.2)
    | some x, some y =>
      let z := f x y
      (some z.1 :: r.1, z.2.or r.2)
  | l => (l, noFlags)

/-- The levels of the tree, the flags of every addition together. -/
def treeSum (f : Nat → Nat → Nat × Fl) : Nat → List (Option Nat) → Option Nat × Fl
  | 0, l => (l.head?.join, noFlags)
  | n + 1, l =>
    let r := treeLevel f l
    let q := treeSum f n r.1
    (q.1, r.2.or q.2)

/-- A lone element delivered: a NaN as the default NaN (R43, R172). -/
def loneElement (f : Fmt) (x : Nat) : Nat × Fl :=
  match f.read x with
  | .nan s => f.nanOf s
  | _ => (x, noFlags)

/-- RSUM of floating elements (R43). -/
def floatSum (f : Fmt) (rm : Rm) (leaves : List (Option Nat)) : Nat × Fl :=
  match leaves.filterMap id with
  | [] => (0, noFlags)
  | [x] => loneElement f x
  | _ =>
    let r := treeSum (f.add rm) 8 (leaves ++ List.replicate (256 - leaves.length) none)
    (r.1.getD 0, r.2)

/-- RSUM of integer elements: modulo 2^32, or 2^64 for I64; an I16 sum is a 32-bit sum (R43, R172). -/
def intSum (ty : Nat) (xs : List Nat) : Word :=
  let t : Int := xs.foldl (fun acc x => acc + (vint ty).read x) 0
  match ty with
  | 7 => BitVec.ofInt 64 t
  | 5 => (BitVec.ofInt 32 t).setWidth 64
  | _ => (BitVec.ofInt 32 t).signExtend 64

/-- The active elements of an operand. -/
def chosen (m : Mask) (ty : Nat) (lanes : List Nat) : List Nat :=
  ((elements ty lanes).zip (activeElements ty m)).filterMap fun x => if x.2 then some x.1 else none

/-- A reduction to a scalar: its value, its flags, both from the active elements (R161, R172). -/
def reduce (f : Core → Nat → Mask → List Nat → Word × Fl) (o : VArgs) : Act Unit := do
  let a ← readLanes o.ty.toNat o.va.toNat o.t
  vectorIssue
  awaitS o.vd
  let c ← ask id
  let r := f c o.ty.toNat (activeMask c) a
  change fun c => c.raiseLowest r.2
  writeS o.vd r.1
  retire

/-- RSUM (R43, R172). -/
def valRsum (c : Core) (ty : Nat) (m : Mask) (lanes : List Nat) : Word × Fl :=
  if isFloatTy ty then
    let leaves := ((elements ty lanes).zip (activeElements ty m)).map fun x => if x.2 then some x.1 else none
    let r := floatSum (vfmt ty) (arithMode c) leaves
    (scalarOf ty r.1, r.2)
  else (intSum ty (chosen m ty lanes), noFlags)
def actRsum (o : VArgs) : Act Unit := reduce valRsum o
def execRsum (o : VArgs) (s : State) : Host.Outcome State Fault Refusal := finish (actRsum o) s

/-- The extreme of the active elements (R172): integers signed, N32 unsigned. -/
def extreme (wantMax : Bool) (ty : Nat) (xs : List Nat) : Nat × Fl :=
  if isFloatTy ty then
    xs.foldl (fun (acc : Nat × Fl) x =>
      let r := (vfmt ty).pick wantMax acc.1 x
      (r.1, acc.2.or r.2)) ((vfmt ty).nanBits, noFlags)
  else
    let t := vint ty
    let v := xs.foldl (fun acc x => if wantMax then max acc (t.read x) else min acc (t.read x)) (if wantMax then t.lo else t.hi)
    (t.wrap v, noFlags)

/-- RMAX and RMIN (R172). -/
def valExtreme (wantMax : Bool) (_ : Core) (ty : Nat) (m : Mask) (lanes : List Nat) : Word × Fl :=
  let r := extreme wantMax ty (chosen m ty lanes)
  (scalarOf ty r.1, r.2)
def actRmax (o : VArgs) : Act Unit := reduce (valExtreme true) o
def execRmax (o : VArgs) (s : State) : Host.Outcome State Fault Refusal := finish (actRmax o) s
/-- RMIN (R172). -/
def actRmin (o : VArgs) : Act Unit := reduce (valExtreme false) o
def execRmin (o : VArgs) (s : State) : Host.Outcome State Fault Refusal := finish (actRmin o) s

/-- The largest magnitude among elements that are not NaN, +0 with none (R172). -/
def largestMagnitude (f : Fmt) (xs : List Nat) : Nat :=
  xs.foldl (fun acc x =>
    let y := f.withSign false x
    if (f.read x).isNan then acc else if (f.read acc).below (f.read y) then y else acc) 0

/-- RAMAX (R172, R173): every active element is folded into CREG too. -/
def actRamax (o : VArgs) : Act Unit := do
  let a ← readLanes o.ty.toNat o.va.toNat o.t
  vectorIssue
  awaitS o.vd
  let c ← ask id
  let f := vfmt o.ty.toNat
  change fun c => c.fold (a.map fun lane => (elements o.ty.toNat [lane]).map f.read)
  writeS o.vd (scalarOf o.ty.toNat (largestMagnitude f (chosen (activeMask c) o.ty.toNat a)))
  retire
def execRamax (o : VArgs) (s : State) : Host.Outcome State Fault Refusal := finish (actRamax o) s

/-- The index of the first active element holding the maximum, NaNs ignored (R172). -/
def argmaxOf (ty : Nat) (m : Mask) (lanes : List Nat) : Option Nat :=
  let above (a b : Nat) : Bool :=
    if isFloatTy ty then ((vfmt ty).read b).below ((vfmt ty).read a) else (vint ty).read b < (vint ty).read a
  let r := ((List.range 128).zip lanes).foldl (fun (acc : Option (Nat × Nat)) x =>
    if !m.getLsbD x.1 || (isFloatTy ty && ((vfmt ty).read x.2).isNan) then acc
    else match acc with
      | none => some x
      | some b => if above x.2 b.2 then some x else acc) none
  r.map (·.1)

/-- ARGMAX (R172). -/
def valArgmax (_ : Core) (ty : Nat) (m : Mask) (lanes : List Nat) : Word × Fl :=
  ((match argmaxOf ty m lanes with
    | some i => BitVec.ofNat 64 i
    | none => BitVec.allOnes 64), noFlags)
def actArgmax (o : VArgs) : Act Unit := reduce valArgmax o
def execArgmax (o : VArgs) (s : State) : Host.Outcome State Fault Refusal := finish (actArgmax o) s

/-- A running sum of the active elements, one at a time (R172): each element's result and flags. -/
def scanElements (add : Nat → Nat → Nat × Fl) (first : Nat → Nat × Fl) :
    Option Nat → List (Nat × Bool) → List (Nat × Fl)
  | _, [] => []
  | acc, (x, active) :: rest =>
    if !active then (x, noFlags) :: scanElements add first acc rest
    else
      let r := match acc with
        | none => first x
        | some p => add p x
      r :: scanElements add first (some r.1) rest

/-- Element results gathered into lanes, their flags together. -/
def gatherLanes (ty : Nat) : List (Nat × Fl) → List (Nat × Fl)
  | a :: b :: rest =>
    if isPacked ty then (a.1 + b.1 * 2 ^ 16, a.2.or b.2) :: gatherLanes ty rest else a :: b :: gatherLanes ty rest
  | l => l

/-- SCAN (R172). -/
def actScan (o : VArgs) : Act Unit := do
  let ty := o.ty.toNat
  let a ← readLanes ty o.va.toNat o.t
  vectorIssue
  awaitV ty o.vd.toNat
  let c ← ask id
  let add := if isFloatTy ty then (vfmt ty).add (arithMode c) else fun x y => plain (low ty ((x : Int) + y))
  let first := if isFloatTy ty then loneElement (vfmt ty) else plain
  deliverLanes ty o.vd.toNat
    (gatherLanes ty (scanElements add first none ((elements ty a).zip (activeElements ty (activeMask c)))))
def execScan (o : VArgs) (s : State) : Host.Outcome State Fault Refusal := finish (actScan o) s

/-- A vote: the bits of a mask or flag set in the active lanes, as a scalar (R172). -/
def voteOn (f : Mask → Mask → Word) (d va : BitVec 5) : Act Unit := do
  vectorIssue
  awaitS d
  let c ← ask id
  writeS d (f (activeMask c) (maskOrFlags c va.toNat))
  retire

/-- VOTE.ANY, VOTE.ALL, VOTE.NONE (R172). -/
def actVoteAny (o : VnArgs) : Act Unit := voteOn (fun m k => bit (k &&& m ≠ 0)) o.vd o.va
def execVoteAny (o : VnArgs) (s : State) : Host.Outcome State Fault Refusal := finish (actVoteAny o) s
/-- VOTE.ALL (R172). -/
def actVoteAll (o : VnArgs) : Act Unit := voteOn (fun m k => bit (k &&& m = m)) o.vd o.va
def execVoteAll (o : VnArgs) (s : State) : Host.Outcome State Fault Refusal := finish (actVoteAll o) s
/-- VOTE.NONE (R172). -/
def actVoteNone (o : VnArgs) : Act Unit := voteOn (fun m k => bit (k &&& m = 0)) o.vd o.va
def execVoteNone (o : VnArgs) (s : State) : Host.Outcome State Fault Refusal := finish (actVoteNone o) s

/-- POPM (R172). -/
def actPopm (o : VArgs) : Act Unit :=
  voteOn (fun m k => BitVec.ofNat 64 ((laneBits (k &&& m)).filter id).length) o.vd o.va
def execPopm (o : VArgs) (s : State) : Host.Outcome State Fault Refusal := finish (actPopm o) s

/-! ### Permutes (R174) -/

/-- Lanes without flags. -/
def quiet (l : List Nat) : List (Nat × Fl) := l.map plain

/-- BCAST (R174). -/
def actBcast (o : VArgs) : Act Unit := do
  let x ← readS o.va o.t
  vectorIssue
  awaitV o.ty.toNat o.vd.toNat
  deliverLanes o.ty.toNat o.vd.toNat (List.replicate 128 (plain (broadcast o.ty.toNat x)))
def execBcast (o : VArgs) (s : State) : Host.Outcome State Fault Refusal := finish (actBcast o) s

/-- XTR (R174): ignores the mask. -/
def actXtr (o : VArgs) : Act Unit := do
  let a ← readLanes o.ty.toNat o.va.toNat o.t
  let i ← readS o.vb o.t
  vectorIssue
  awaitS o.vd
  writeS o.vd (scalarOf o.ty.toNat ((elements o.ty.toNat a).getD (i.toNat % elemCount o.ty.toNat) 0))
  retire
def execXtr (o : VArgs) (s : State) : Host.Outcome State Fault Refusal := finish (actXtr o) s

/-- INS (R174): its element changes only when its lane is active. -/
def actIns (o : VArgs) : Act Unit := do
  let ty := o.ty.toNat
  let x ← readS o.va o.t
  let i ← readS o.vb o.t
  vectorIssue
  awaitV ty o.vd.toNat
  let old ← readLanes ty o.vd.toNat 0
  let new := (elements ty old).set (i.toNat % elemCount ty) (x.toNat % 2 ^ elemBits ty)
  deliverLanes ty o.vd.toNat (quiet (lanesOf ty new))
def execIns (o : VArgs) (s : State) : Host.Outcome State Fault Refusal := finish (actIns o) s

/-- PERM (R174). -/
def actPerm (o : VArgs) : Act Unit := do
  let ty := o.ty.toNat
  let a ← readLanes ty o.va.toNat o.t
  let b ← readVb ty o.bs o.vb o.t
  vectorIssue
  awaitV ty o.vd.toNat
  let els := elements ty a
  deliverLanes ty o.vd.toNat (quiet (lanesOf ty ((elements ty b).map fun j => els.getD (j % elemCount ty) 0)))
def execPerm (o : VArgs) (s : State) : Host.Outcome State Fault Refusal := finish (actPerm o) s

/-- Elements moved up by a signed amount, zeros moving in. -/
def slideElements (n : Nat) (els : List Nat) (amount : Int) : List Nat :=
  (List.range n).map fun (j : Nat) => if 0 ≤ (j : Int) - amount then els.getD ((j : Int) - amount).toNat 0 else 0

/-- SLIDE (R174). -/
def actSlide (o : VArgs) : Act Unit := do
  let ty := o.ty.toNat
  let a ← readLanes ty o.va.toNat o.t
  let k ← readS o.vb o.t
  vectorIssue
  awaitV ty o.vd.toNat
  deliverLanes ty o.vd.toNat (quiet (lanesOf ty (slideElements (elemCount ty) (elements ty a) k.toInt)))
def execSlide (o : VArgs) (s : State) : Host.Outcome State Fault Refusal := finish (actSlide o) s

/-- Element j of IOTA: s + j (R174). -/
def iotaElement (c : Core) (ty : Nat) (x : Nat) (j : Nat) : Nat × Fl :=
  if isFloatTy ty then (vfmt ty).deliver (arithMode c) false (((vfmt ty).read x).add (arithMode c) (Num.ofInt j))
  else plain (low ty ((x : Int) + j))

/-- IOTA (R174). -/
def actIota (o : VArgs) : Act Unit := do
  let ty := o.ty.toNat
  let x ← readS o.va o.t
  vectorIssue
  awaitV ty o.vd.toNat
  let c ← ask id
  deliverLanes ty o.vd.toNat
    (gatherLanes ty ((List.range (elemCount ty)).map (iotaElement c ty (x.toNat % 2 ^ elemBits ty))))
def execIota (o : VArgs) (s : State) : Host.Outcome State Fault Refusal := finish (actIota o) s

end Sys2Proof.Machine
end

