-- ==== Sys2Proof/Machine/Vqnt.lean ====
section
/-!
DEFINITION. Block formats and their elements (R18 to R25), quantising (QNT, R28 to R30, R183 to R185), packing (PACK, R186),
dequantising (DQNT, R187), unpacking (UNPK, R31, R188), code tables (CTLD, CTAB, CTENC, R189, R190) and RNG (R191).
-/

namespace Sys2Proof.Machine

/-! ### Formats of a block (R20, R24) -/

/-- Elements of a block of a format (R184, R24). -/
def blockCount (code : Nat) : Nat :=
  match code with
  | 0x01 => 8
  | 0x02 | 0x03 | 0x0D => 16
  | 0x04 | 0x05 | 0x0B | 0x0C => 32
  | 0x14 | 0x22 | 0x23 => 128
  | _ => 64

/-- The storage formats of six bits. -/
def isSixBit (code : Nat) : Bool := code = 0x20 || code = 0x21

/-- Bits of an element as stored: elements lie one after another (R24). -/
def storedBits (code : Nat) : Nat := if isSixBit code then 6 else 512 / blockCount code

/-- The formats whose quarters carry a scale (R21). -/
def quarterScaled (code : Nat) : Bool := (0x10 ≤ code && code ≤ 0x14) || isSixBit code

/-- The quarter of a block that holds an element (R24, R184). -/
def quarterOf (code j : Nat) : Nat := j % blockCount code / (blockCount code / 4)

/-- The bytes written with quarters of a block: bytes 48 to 63 too for a six-bit format (R184). -/
def quarterBytes (code : Nat) (written : List Nat) : BitVec 64 :=
  if isSixBit code then
    written.foldl (fun acc q => acc ||| byteMask (12 * q) 12) (if written.isEmpty then 0 else byteMask 48 16)
  else written.foldl (fun acc q => acc ||| byteMask (16 * q) 16) 0

/-- The scale byte of a quarter (R19). -/
def scaleByte (t : Tag) (q : Nat) : BitVec 8 := t.extractLsb' (8 + 8 * q) 8

/-- The format code of a tag. -/
def formatOf (t : Tag) : Nat := (t.extractLsb' 0 8).toNat

/-- A tag from a format and four scale bytes. -/
def tagOf (code : Nat) (scale : Nat → BitVec 8) : Tag :=
  BitVec.ofNat 40 (code % 256 + (List.range 4).foldl (fun acc q => acc + (scale q).toNat * 2 ^ (8 + 8 * q)) 0)

/-- Element i of a block's data. -/
def storedElement (code : Nat) (data : BitVec 512) (i : Nat) : Nat :=
  (data.extractLsb' (storedBits code * i) (storedBits code)).toNat

/-- A block's data from its elements. -/
def blockOfElements (code : Nat) (els : List Nat) : BitVec 512 :=
  BitVec.ofNat 512 (els.foldr (fun x acc => x % 2 ^ storedBits code + acc * 2 ^ storedBits code) 0)

/-- The selectors of R183. -/
def selectorCodes : List Nat :=
  [0x02, 0x03, 0x04, 0x05, 0x06, 0x07, 0x08, 0x09, 0x0A, 0x0B, 0x0C, 0x0D, 0x0E, 0x10, 0x11, 0x12, 0x13, 0x14, 0x18, 0x19, 0x1A,
   0x20, 0x21, 0x22, 0x23]

/-- The format that a selector names; illegal selectors name RAW. -/
def selectorCode (n : Nat) : Nat := selectorCodes.getD n 0

/-- The floating format of a format code's elements, where they have one. -/
def floatOf (code : Nat) : Option Fmt :=
  match code with
  | 0x01 => some fmtF64
  | 0x02 => some fmtF32
  | 0x03 => some fmtF19
  | 0x04 => some fmtB16
  | 0x05 => some fmtF16
  | 0x06 | 0x10 | 0x18 => some fmtE4M3
  | 0x07 | 0x11 | 0x19 => some fmtE5M2
  | 0x08 | 0x12 => some fmtE3M4
  | 0x14 => some fmtE2M1
  | 0x20 => some fmtE2M3
  | 0x21 => some fmtE3M2
  | _ => none

/-- The integer format of a format code's elements, where they have one. -/
def integerOf (code : Nat) : Option IFmt :=
  match code with
  | 0x09 | 0x13 | 0x1A => some ⟨true, 8⟩
  | 0x0A => some ⟨false, 8⟩
  | 0x0B => some ⟨true, 16⟩
  | 0x0C => some ⟨false, 16⟩
  | 0x0D => some ⟨true, 32⟩
  | 0x22 => some ⟨true, 4⟩
  | _ => none

/-- The value of an element, without its scale: MI8 counts in 2^−6 (R14). -/
def elementValue (code x : Nat) : Num :=
  match floatOf code, integerOf code with
  | some f, _ => f.read x
  | none, some t =>
    match Num.ofInt (t.read x) with
    | .fin n m e => .fin n m (if code = 0x13 then e - 6 else e)
    | v => v
  | none, none => .fin false 0 0

/-! ### BlockWrite (R184) -/

/-- A block address must be a multiple of 64. R175 gives a lane to a fault found at a block: a base that is no block's address is taken
as found at none, and names no lane. DESIGN CHOICE (log 38). -/
def blockAligned (a : Word) : Act Unit := aligned a 64

/-- Block k of a run. -/
def nthBlock (base : Word) (k : Nat) : Word := base + BitVec.ofNat 64 (64 * k)

/-- One block to be written: its number, the lane that its failure names, data, byte mask, tag, tag-byte mask. -/
structure BlockWrite where
  k : Nat
  lane : Nat
  data : BitVec 512
  mask : BitVec 64
  tag : Tag
  tagMask : BitVec 5
  deriving DecidableEq, Repr

/-- The place of a block of a run, for reading or for writing. -/
def blockTarget (base : Word) (k lane : Nat) (m : Mode) (need : Need) (ordered : Bool := true) : Act Target :=
  atLane lane (tagTarget (nthBlock base k) 64 m need ordered)

/-- Blocks written: every one checked in order, then a commit if one needs it, then every one performed in order. -/
def writeRun (base : Word) (extra : Bool) (ws : List BlockWrite) : Act Bool := do
  let ts ← collect (fun (w : BlockWrite) => do
    let t ← blockTarget base w.k w.lane .store .write
    atLane w.lane (takesStore t w.mask w.tagMask)
    pure t) ws
  let commits := extra || ts.any (·.commits)
  if commits then commitPoint
  each (fun (w : BlockWrite) => do
    let t ← blockTarget base w.k w.lane .store .write false
    atLane w.lane (writeBlock t w.data w.mask w.tag w.tagMask)) ws
  pure commits

/-- The mask of tag bytes: the format, and the scale bytes of quarters. -/
def tagBytes (scales : List Nat) : BitVec 5 := scales.foldl (fun acc q => acc ||| (1#5 <<< (q + 1))) 1

/-- The block writes of 128 elements of a format (R184): quarters with an active lane, their scale bytes (none written where
`scale` names none). Quarters are numbered across the run. -/
def runOf (code : Nat) (m : Mask) (els : List Nat) (scale : Nat → Option (BitVec 8)) : List BlockWrite :=
  let k := blockCount code
  (List.range (128 / k)).filterMap fun b =>
    let lanes := (List.range k).map (b * k + ·)
    let live := lanes.filter fun j => m.getLsbD j
    let written := (List.range 4).filter fun q => live.any fun j => quarterOf code j = q
    match live with
    | [] => none
    | first :: _ =>
      some
        { k := b
          lane := first
          data := blockOfElements code (lanes.map fun j => if m.getLsbD j then els.getD j 0 else 0)
          mask := quarterBytes code written
          tag := tagOf code fun q => (scale (4 * b + q)).getD 0
          tagMask := tagBytes (written.filter fun q => (scale (4 * b + q)).isSome) }

/-! ### QNT (R28, R29, R183 to R185) -/

/-- emax of a quarter-scaled format (R28). -/
def emaxOf (code : Nat) : Int :=
  match code with
  | 0x10 => 8
  | 0x11 => 15
  | 0x12 | 0x21 => 4
  | 0x13 => 0
  | _ => 2

/-- The scale of a group of F32 elements: the largest magnitude as a pattern, where infinity stands above every number and a NaN
above infinity (R185). -/
def groupScale (code : Nat) (xs : List Nat) : BitVec 8 :=
  scaleOf (fmtF32.read ((xs.map (· % 2 ^ 31)).foldl max 0)) (emaxOf code)

/-- One element quantised under a scale (R29). -/
def quantElement (code : Nat) (rm : Rm) (x : Nat) (scale : BitVec 8) : Nat × Fl × Bool :=
  if scale = 0xFF then (0, noFlags, false)
  else
    let v := (fmtF32.read x).unscaled scale
    match floatOf code with
    | some f => f.quantise rm v
    | none => quantiseMi8 rm v

/-- The element index of an address and a lane under stochastic rounding (R185, R187). -/
def elementIndex (a : Word) (j : Nat) : Nat := objOff a / 64 * 128 + j

/-- The scale of every quarter of the run, by mode: quarter, crsc, shared. -/
def qntScales (c : Core) (code ty : Nat) (xs : List Nat) : Nat → BitVec 8 := fun q =>
  let m := activeMask c
  let width := blockCount code / 4
  let live := (List.range 128).filter fun j => m.getLsbD j
  match ty with
  | 0 => groupScale code ((live.filter fun j => j / width = q).map fun j => xs.getD j 0)
  | 1 => c.crscScale
  | _ => groupScale code (live.map fun j => xs.getD j 0)

/-- One element of a quarter that a NaN has forced to scale byte 0xFF, as it was quantised under the scale given: 0, and of its flags only
the fl.nv of a signalling NaN (R29, R185). -/
def forcedElement (r : Nat × Fl × Bool) : Nat × Fl × Bool := (0, { noFlags with nv := r.2.2 && r.2.1.nv }, r.2.2)

/-- The active lanes quantised, and the scale bytes that are written: a NaN in a format without one forces its quarter's scale to 0xFF
(R29), under which every element of the quarter is 0 (R185). R185 has such a quarter set no flag, and R29 has the signalling NaN that
forces it set fl.nv: the model sets that one and no other. DEDUCED (log 17). -/
def qntLanes (c : Core) (code ty : Nat) (a : Word) (xs : List Nat) : List (Nat × Fl × Bool) × (Nat → BitVec 8) :=
  let scales := (List.range 32).map (qntScales c code ty xs)
  let width := blockCount code / 4
  let under (scale : Nat → BitVec 8) := (List.range 128).map fun j =>
    quantElement code (convMode c (elementIndex a j)) (xs.getD j 0) (scale (j / width))
  let given (q : Nat) : BitVec 8 := scales.getD q 0
  let first := under given
  let forced := (List.range 32).map fun q => (List.range width).any fun i =>
    (activeMask c).getLsbD (q * width + i) && (first.getD (q * width + i) (0, noFlags, false)).2.2
  ((List.range 128).map fun j =>
      let r := first.getD j (0, noFlags, false)
      if forced.getD (j / width) false then forcedElement r else r,
    fun q => if forced.getD q false then 0xFF else given q)

/-- QNT (R183 to R185). -/
def actQnt (o : VArgs) : Act Unit := do
  let a ← readV o.va.toNat o.t
  let b ← readS o.vb o.t
  vectorIssue
  blockAligned b
  let c ← ask id
  let code := selectorCode o.vd.toNat
  let r := qntLanes c code o.ty.toNat b (VReg.nats a)
  let commits ← writeRun b false (runOf code (activeMask c) (r.1.map (·.1)) fun q => some (r.2 q))
  change fun c => c.raise (r.1.map (·.2.1))
  retireAs commits
def execQnt (o : VArgs) (s : State) : Host.Outcome State Fault Refusal := finish (actQnt o) s

/-! ### PACK (R186) -/

/-- PACK (R186). -/
def actPack (o : VArgs) : Act Unit := do
  let a ← readV o.va.toNat o.t
  let b ← readS o.vb o.t
  vectorIssue
  blockAligned b
  let c ← ask id
  let code := selectorCode o.vd.toNat
  let scale : Option (BitVec 8) :=
    if !quarterScaled code then some 0x7F
    else match o.ty.toNat with
      | 0 => some 0x7F
      | 1 => some c.crscScale
      | _ => none
  let commits ← writeRun b false (runOf code (activeMask c) (VReg.nats a) fun _ => scale)
  retireAs commits
def execPack (o : VArgs) (s : State) : Host.Outcome State Fault Refusal := finish (actPack o) s

/-! ### DQNT (R187) -/

/-- The formats that DQNT reads. -/
def dqntReads (code : Nat) : Bool :=
  (0x02 ≤ code && code ≤ 0x0E && code ≠ 0x0D) || (0x10 ≤ code && code ≤ 0x14) || (0x20 ≤ code && code ≤ 0x23)

/-- An entry of a code table. -/
def tableEntry (c : Core) (four : Bool) (x : Nat) : Nat :=
  if four then (c.c4.toList.getD (x % 16) 0).toNat else (c.c8.toList.getD (x % 256) 0).toNat

/-- A table entry delivered: the default NaN for every NaN (R16, R187, R190). -/
def deliveredEntry (x : Nat) : Nat := if (fmtF32.read x).isNan then fmtF32.nanBits else x

/-- One element dequantised (R18, R21, R187). -/
def dequantElement (c : Core) (code : Nat) (rm : Rm) (scale : BitVec 8) (x : Nat) : Nat × Fl :=
  if code = 0x0E || code = 0x23 then (deliveredEntry (tableEntry c (code = 0x23) x), noFlags)
  else if quarterScaled code && scale = 0xFF then (fmtF32.nanBits, noFlags)
  else
    let v := elementValue code x
    fmtF32.convert rm false (if quarterScaled code then v.scaled scale else v)

/-- Block k of a run read and checked: its format is accepted, and is one of K elements (R25, R187). -/
def dqntBlock (a : Word) (n k : Nat) : Act (Block × Bool × Bool) := do
  let t ← blockTarget a k (k * n) .load .read
  atLane (k * n) do
    let r ← readBlock t
    require (dqntReads (formatOf r.1.tag)) (.trap (trapAt 0x11 (nthBlock a k)))
    require (n = 0 || blockCount (formatOf r.1.tag) = n) (.trap (trapAt 0x12 (nthBlock a k)))
    pure (r.1, r.2, t.commits)

/-- Lane j of a run of blocks of n elements. -/
def dqntLane (c : Core) (a : Word) (n : Nat) (bs : List (Block × Bool × Bool)) (j : Nat) : Nat × Fl :=
  let b := (bs.getD (j / n) (⟨0, 0⟩, false, false)).1
  let code := formatOf b.tag
  dequantElement c code (convMode c (elementIndex a j)) (scaleByte b.tag (quarterOf code j)) (storedElement code b.data (j % n))

/-- DQNT (R187): the first block gives K; every block is read and checked whatever the mask. -/
def actDqnt (o : VArgs) : Act Unit := do
  let a ← readS o.va o.t
  vectorIssue
  awaitV 0 o.vd.toNat
  blockAligned a
  let first ← dqntBlock a 0 0
  let n := blockCount (formatOf first.1.tag)
  let rest ← collect (fun k => dqntBlock a n (k + 1)) (List.range (128 / n - 1))
  let bs := first :: rest
  let commits := bs.any (·.2.2)
  if commits then commitPoint
  let c ← ask id
  let rs := (List.range 128).map (dqntLane c a n bs)
  change fun c => c.raise (rs.map (·.2))
  finishLoad 0 o.vd.toNat (bs.any (·.2.1)) commits (rs.map (·.1))
def execDqnt (o : VArgs) (s : State) : Host.Outcome State Fault Refusal := finish (actDqnt o) s

/-! ### UNPK (R31, R188) -/

/-- One storage-only element as E4M3 (R31). -/
def expandElement (c : Core) (code x : Nat) : Nat × Fl :=
  fmtE4M3.convert .rne false (if code = 0x23 then fmtF32.read (tableEntry c true x) else elementValue code x)

/-- UNPK from memory to memory (R188). Its checks come in this order: the alignment of s[va], of s[vb], the source block and its FMT, the
destination blocks. DESIGN CHOICE (log 41). -/
def actUnpk (o : VnArgs) : Act Unit := do
  let a ← readS o.va o.t
  let b ← readS o.vb o.t
  vectorIssue
  blockAligned a
  blockAligned b
  let t ← blockTarget a 0 0 .load .read
  let r ← atLane 0 (readBlock t)
  let code := formatOf r.1.tag
  require (0x20 ≤ code && code ≤ 0x23) (.trap ((trapAt 0x11 a).atLane 0))
  let c ← ask id
  let n := blockCount code
  let els := (List.range n).map fun j =>
    if (activeMask c).getLsbD j then expandElement c code (storedElement code r.1.data j) else (0, noFlags)
  let tag := if isSixBit code then tagOf 0x10 (scaleByte r.1.tag) else tagOf 0x06 fun _ => 0x7F
  let commits ← writeRun b t.commits ((List.range (n / 64)).map fun k =>
    { k := k
      lane := 64 * k
      data := blockOfElements 0x06 (((els.map (·.1)).drop (64 * k)).take 64)
      mask := BitVec.allOnes 64
      tag := tag
      tagMask := BitVec.allOnes 5 })
  change fun c => c.raise (els.map (·.2) ++ List.replicate (128 - n) noFlags)
  retireAs commits
def execUnpk (o : VnArgs) (s : State) : Host.Outcome State Fault Refusal := finish (actUnpk o) s

/-- Nibble y of a group after the transpose of R188: nibble 4r + n moves to nibble 16n + r. -/
def nibbleFrom (y : Nat) : Nat := 4 * (y % 16) + y / 16

/-- Lane i after the transpose of its group of eight lanes. -/
def transposeLane (xs : List Nat) (i : Nat) : Nat :=
  (List.range 8).foldl (fun acc m =>
    let x := nibbleFrom (8 * (i % 8) + m)
    acc + xs.getD (i / 8 * 8 + x / 8) 0 / 2 ^ (4 * (x % 8)) % 16 * 2 ^ (4 * m)) 0

/-- UNPK_T (R188). -/
def actUnpkT (o : VnArgs) : Act Unit := do
  let a ← readV o.va.toNat o.t
  vectorIssue
  awaitV 0 o.vd.toNat
  change fun c => c.writeLanes 0 o.vd.toNat ((List.range 128).map (transposeLane (VReg.nats a)))
  retire
def execUnpkT (o : VnArgs) (s : State) : Host.Outcome State Fault Refusal := finish (actUnpkT o) s

/-! ### Code tables (R18, R189, R190) -/

/-- CTLD (R189): the table's entries read as loads of four bytes. -/
def actCtld (o : VArgs) : Act Unit := do
  let a ← readS o.va o.t
  vectorIssue
  blockAligned a
  let n := if o.ty = 0 then 256 else 16
  let rs ← collect (fun k => loadElement (a + BitVec.ofNat 64 (4 * k)) 4) (List.range n)
  let commits := rs.any fun r => r.2.2
  if commits then commitPoint
  let vals : List Lane := rs.map fun r => BitVec.ofNat 32 r.1
  change fun c =>
    if o.ty = 0 then { c with c8 := Vector.ofFn fun i => vals.getD i.val 0 } else { c with c4 := Vector.ofFn fun i => vals.getD i.val 0 }
  retireAs commits
def execCtld (o : VArgs) (s : State) : Host.Outcome State Fault Refusal := finish (actCtld o) s

/-- CTAB (R190). R16 binds for every NaN that an instruction delivers, a decoded entry's included, though R18 and R190 have the decoding
be exact. DEDUCED (log 17). -/
def actCtab (o : VArgs) : Act Unit := do
  let a ← readV o.va.toNat o.t
  vectorIssue
  awaitV 0 o.vd.toNat
  change fun c => c.writeLanes 0 o.vd.toNat ((VReg.nats a).map fun k => deliveredEntry (tableEntry c (o.ty = 1) k))
  retire
def execCtab (o : VArgs) (s : State) : Host.Outcome State Fault Refusal := finish (actCtab o) s

/-- An F32 value as an integer in units of 2^−149; infinities stand at ±2^400; a NaN has no place. -/
def codePlace (x : Nat) : Option Int :=
  match fmtF32.read x with
  | .nan _ => none
  | .inf n => some (signed n (2 ^ 400))
  | .fin n m e => some (signed n (m * 2 ^ (e + 149).toNat))

/-- The distance of an entry from a value: every infinite one is the same for a finite value (R190). -/
def codeDistance (v e : Int) : Nat := if v.natAbs < 2 ^ 400 then min (v - e).natAbs (2 ^ 399) else (v - e).natAbs

/-- The nearest entry's code and distance, the smaller code on a tie; NaN entries are never chosen. -/
def nearestCode (v : Int) (table : List Nat) : Option (Nat × Nat) :=
  ((List.range table.length).zip table).foldl (fun (best : Option (Nat × Nat)) x =>
    match codePlace x.2, best with
    | none, best => best
    | some e, none => some (x.1, codeDistance v e)
    | some e, some b => if codeDistance v e < b.2 then some (x.1, codeDistance v e) else some b) none

/-- One lane of CTENC. -/
def encodeCode (table : List Nat) (x : Nat) : Nat × Fl :=
  match codePlace x with
  | none => (0, invalidFlag)
  | some v =>
    match nearestCode v table with
    | none => (0, invalidFlag)
    | some r => (r.1, { nx := decide (r.2 ≠ 0) })

/-- CTENC (R190). -/
def actCtenc (o : VArgs) : Act Unit := do
  let a ← readV o.va.toNat o.t
  vectorIssue
  awaitV 0 o.vd.toNat
  let table ← ask fun c => if o.ty = 1 then c.c4.toList.map (·.toNat) else c.c8.toList.map (·.toNat)
  deliverLanes 0 o.vd.toNat ((VReg.nats a).map (encodeCode table))
def execCtenc (o : VArgs) (s : State) : Host.Outcome State Fault Refusal := finish (actCtenc o) s

/-! ### RNG (R191) -/

/-- RNG (R191). -/
def actRng (o : VArgs) : Act Unit := do
  let a ← readV o.va.toNat o.t
  let x ← readS o.vb o.t
  vectorIssue
  awaitV 0 o.vd.toNat
  let c ← ask id
  let word (i : Nat) : Nat := philox c.seed i 0 (x.toNat % 2 ^ 32) (x.toNat / 2 ^ 32)
  change fun c => c.writeLanes 0 o.vd.toNat ((VReg.nats a).map fun i =>
    if o.ty = 5 then word i else (fmtF32.round .rne false false (word i / 256) (-24)).1)
  retire
def execRng (o : VArgs) (s : State) : Host.Outcome State Fault Refusal := finish (actRng o) s

end Sys2Proof.Machine
end

