-- ==== Sys2Proof/Machine/Mtx.lean ====
section
/-!
DEFINITION. The matrix engine (R26, R27, R42, R192 to R206): MMA and its accumulation, MZ, MLD, MST, MRD, MWR, MCFG.
-/

namespace Sys2Proof.Machine

/-! ### Tiles and interlocks (R193, R195) -/

/-- Tile n of a core. -/
def Core.tileOf (c : Core) (n : Nat) : Tile := c.tiles.toList.getD n (Vector.replicate 1024 0)

/-- The format of tile n: 0 F32, 1 F64, 2 I32. -/
def Core.tileFormat (c : Core) (n : Nat) : Nat := (c.tf.toList.getD n 0).toNat

/-- Bytes of an element of tile n. -/
def Core.tileBytes (c : Core) (n : Nat) : Nat := if c.tileFormat n = 1 then 8 else 4

/-- An instruction that reads or writes a tile waits until every earlier MMA that writes it has completed. -/
def tileInterlock (n : Nat) : Act Unit := fun s =>
  if s.core.mops.any (·.tile = n) then .error (.stall 0) else .ok ((), s)

/-- MCFG waits until every earlier MMA has completed. -/
def configInterlock : Act Unit := fun s => if s.core.mops.isEmpty then .ok ((), s) else .error (.stall 0)

/-- A tile's elements replaced. -/
def Core.putTile (c : Core) (n : Nat) (t : Tile) : Core := { c with tiles := c.tiles.setIfInBounds n t }

/-- A tile from its elements. -/
def Tile.ofList (l : List Nat) : Tile := Vector.ofFn fun i => BitVec.ofNat 64 (l.getD i.val 0)

/-! ### MMA (R26, R27, R196, R197) -/

/-- The width class of a format (the rows of R26), none for a format that the engine does not accept. -/
def widthClass (code : Nat) : Option Nat :=
  match code with
  | 0x01 => some 0
  | 0x02 | 0x03 => some 1
  | 0x04 | 0x05 => some 2
  | 0x0B | 0x0C => some 3
  | 0x06 | 0x07 | 0x08 | 0x10 | 0x11 | 0x12 | 0x18 | 0x19 => some 4
  | 0x09 | 0x0A => some 5
  | 0x13 | 0x1A => some 6
  | 0x14 => some 7
  | _ => none

/-- The accumulator format of a width class. -/
def accumulator (cls : Nat) : Nat := if cls = 0 then 1 else if cls = 3 || cls = 5 then 2 else 0

/-- Steps 1 to 3 of R196 for one block, and its physical address. Rows that run past a member's last offset in space 2 are the next member's,
by their address. DESIGN CHOICE (log 41). -/
def operandPlace (a : Word) : Act Nat := do
  aligned a 64
  require (a.getLsbD 63 && (spaceOf a = 1 || spaceOf a = 2)) (.trap (trapAt 0x05 a))
  fun s =>
    match localTarget s a 64 .load with
    | .ok (.sram p _ _) => .ok (p, s)
    | .ok _ => .error (.trap (trapAt 0x05 a))
    | .error t => .error (.trap t)

/-- Steps 1 to 4 of R196 for one row: the block, read behind the core's own posted atomics to its scratchpad (R253), given the code of
row 0 and the class of the other operand where they are known. -/
def operandRow (a : Word) (code cls : Option Nat) : Act Block := do
  let p ← operandPlace a
  behindSram p .load
  readable p a
  let b ← askS fun s => physBlock s p
  let f := formatOf b.tag
  require (widthClass f).isSome (.trap (trapAt 0x11 a))
  require (code.isNone || code = some f) (.trap (trapAt 0x12 a))
  require (cls.isNone || cls = widthClass f) (.trap (trapAt 0x12 a))
  pure b

/-- The 32 rows of an operand, in ascending order. -/
def operandRows (a : Word) (cls : Option Nat) : Act (List Block) := do
  let first ← operandRow a none cls
  let rest ← collect (fun r => operandRow (nthBlock a (r + 1)) (some (formatOf first.tag)) cls) (List.range 31)
  pure (first :: rest)

/-- The class of an operand that has been read. -/
def operandClass (bs : List Block) : Option Nat := bs.head?.bind fun b => widthClass (formatOf b.tag)

/-- MMA (R195, R196): it retires with its operands read and checked. All its blocks are read in the step in which it issues, where R206 lets
each be read at an instant of its own up to retirement. DESIGN CHOICE (log 10). -/
def actMma (o : VArgs) : Act Unit := do
  let a ← readS o.va o.t
  let b ← readS o.vb o.t
  vectorIssue
  let n := o.vd.toNat
  tileInterlock n
  let as ← operandRows a none
  let bs ← operandRows b (operandClass as)
  require (← ask fun c => decide ((operandClass as).map accumulator = some (c.tileFormat n))) (.trap (trapAt 0x12 a))
  change fun c => { c with mops := c.mops ++ [{ tile := n, a := as, b := bs, sa := c.sa, sb := c.sb, isat := c.isat }] }
  retire
def execMma (o : VArgs) (s : State) : Host.Outcome State Fault Refusal := finish (actMma o) s

/-! ### The accumulation (R42, R197, R198) -/

/-- An element with its scale, and whether it raises NV: a signalling NaN, or an infinite scale on a zero. A signalling NaN in a quarter
whose scale byte is 0xFF raises none. DEDUCED (log 17). -/
def elemVal (b : Block) (scale : Lane) (k : Nat) : Num × Bool :=
  let code := formatOf b.tag
  let x := elementValue code (storedElement code b.data k)
  if quarterScaled code then
    let e := scaleByte b.tag (quarterOf code k)
    (if e = 0xFF || x.isNan then .nan false else x.scaled e, e ≠ 0xFF && x.isSnan)
  else if 0x18 ≤ code && code ≤ 0x1A then
    match fmtF32.read scale.toNat with
    | .nan _ => (.nan false, x.isSnan)
    | sc =>
      let r := x.mul sc
      (r.1, r.2.nv)
  else (if x.isNan then .nan false else x, x.isSnan)

/-- The elements of a row. -/
def rowValues (scale : Lane) (b : Block) : List (Num × Bool) :=
  (List.range (blockCount (formatOf b.tag))).map (elemVal b scale)

/-- The products of two rows, and whether one of them raises NV. -/
def products (xs ys : List (Num × Bool)) : List Num × Bool :=
  let ps := List.zipWith (fun (x y : Num × Bool) =>
    let r := x.1.mul y.1
    (r.1, r.2.nv || x.2 || y.2)) xs ys
  (ps.map (·.1), ps.any (·.2))

/-- An infinity of a sign. -/
def Num.isInf (neg : Bool) : Num → Bool
  | .inf n => n = neg
  | _ => false

/-- Minus zero. -/
def Num.isNegZero : Num → Bool
  | .fin n m _ => n && m = 0
  | _ => false

/-- The least exponent among finite values, and their exact sum in units of 2 to that power. -/
def leastExponent (xs : List Num) : Int := xs.foldl (fun e x => match x with
  | .fin _ _ k => min e k
  | _ => e) 0
def sumAt (e : Int) (xs : List Num) : Int := xs.foldl (fun acc x => match x with
  | .fin n m k => acc + signed n (m * 2 ^ (k - e).toNat)
  | _ => acc) 0

/-- RoundAcc (R42): the exact sum rounded once, and its NV, OF and NX. -/
def roundAcc (f : Fmt) (xs : List Num) (nv : Bool) : Nat × Bool × Bool × Bool :=
  let pos := xs.any (Num.isInf false)
  let neg := xs.any (Num.isInf true)
  if xs.any Num.isNan || (pos && neg) then (f.nanBits, nv || (pos && neg), false, false)
  else if pos || neg then (f.infBits neg, false, false, false)
  else
    let e := leastExponent xs
    let t := sumAt e xs
    if t = 0 then ((if xs.all Num.isNegZero then f.signBit else 0), false, false, false)
    else
      let r := f.round .rne false (decide (t < 0)) t.natAbs e
      (r.1, false, r.2.of, r.2.nx)

/-- An integer value. -/
def Num.toInt : Num → Int
  | .fin n m e => signed n (m * 2 ^ e.toNat)
  | _ => 0

/-- The I32 total: the element, and whether it lies outside the range (R42, R198). -/
def intAcc (isat : Bool) (old : Nat) (ps : List Num) : Nat × Bool :=
  let t : IFmt := ⟨true, 32⟩
  let total := ps.foldl (fun acc p => acc + p.toInt) (t.read old)
  (t.wrap (if isat then t.clamp total else total), decide (total < t.lo) || decide (t.hi < total))

/-- One element of the tile: its new bits, and NV, OF, NX, ISAT. -/
def accElement (tf : Nat) (isat : Bool) (old : Nat) (xs ys : List (Num × Bool)) : Nat × Bool × Bool × Bool × Bool :=
  let ps := products xs ys
  if tf = 2 then
    let r := intAcc isat old ps.1
    (r.1, false, false, false, r.2)
  else
    let f := if tf = 1 then fmtF64 else fmtF32
    let acc := f.read old
    let r := roundAcc f ((if acc.isNan then .nan false else acc) :: ps.1) ps.2
    (r.1, r.2.1, r.2.2.1, r.2.2.2, false)

/-- An MMA accumulated into its tile. -/
def Core.accumulate (c : Core) (op : MmaOp) : Core :=
  let tf := c.tileFormat op.tile
  let old := c.tileOf op.tile
  let as := op.a.map (rowValues op.sa)
  let bs := op.b.map (rowValues op.sb)
  let rs := (List.range 1024).map fun e =>
    accElement tf op.isat (if tf = 1 then (old.toList.getD e 0).toNat else (old.toList.getD e 0).toNat % 2 ^ 32) (as.getD (e / 32) [])
      (bs.getD (e % 32) [])
  (c.putTile op.tile (Tile.ofList (rs.map (·.1)))).raiseMfl (rs.any (·.2.1)) (rs.any (·.2.2.1)) (rs.any (·.2.2.2.1))
    (rs.any (·.2.2.2.2))

/-- MMA_ACCUMULATE (R195): the engine completes the oldest MMA of a core. -/
def actMmaAccumulate (core : Nat) (s : State) : State :=
  match (s.coreAt core).mops with
  | op :: rest => s.modCore core fun c => { c.accumulate op with mops := rest }
  | [] => s
def execMmaAccumulate (core : Nat) (s : State) : Host.Outcome State Fault Refusal := .next (actMmaAccumulate core s)

/-! ### MZ, MLD (R200, R201) -/

/-- MZ (R200). -/
def actMz (o : VArgs) : Act Unit := do
  vectorIssue
  tileInterlock o.vd.toNat
  change fun c => c.putTile o.vd.toNat (Vector.replicate 1024 0)
  retire
def execMz (o : VArgs) (s : State) : Host.Outcome State Fault Refusal := finish (actMz o) s

/-- MLD (R201). -/
def actMld (o : VArgs) : Act Unit := do
  let a ← readS o.va o.t
  vectorIssue
  let n := o.vd.toNat
  tileInterlock n
  let w ← ask fun c => c.tileBytes n
  aligned a w
  let rs ← collect (fun e => loadElement (a + BitVec.ofNat 64 (e * w)) w) (List.range 1024)
  let commits := rs.any (·.2.2)
  if commits then commitPoint
  change fun c => c.putTile n (Tile.ofList (rs.map (·.1)))
  retireAs commits
def execMld (o : VArgs) (s : State) : Host.Outcome State Fault Refusal := finish (actMld o) s

/-! ### MST (R202, R203) -/

/-- The fields of the options word. -/
def mstOut (w : Word) : Nat := w.toNat % 16
def mstRm (w : Word) : Nat := w.toNat / 16 % 8
def mstSat (w : Word) : Bool := w.getLsbD 7
def mstTag (w : Word) : Bool := w.getLsbD 8
def mstCrest (w : Word) : Bool := w.getLsbD 9

/-- The format code of an OUT value for a tile format (R202, R20). -/
def mstCode (tf out : Nat) : Nat :=
  match out with
  | 0 => if tf = 1 then 0x01 else if tf = 2 then 0x0D else 0x02
  | 1 => 0x02
  | 2 => 0x03
  | 3 => 0x04
  | 4 => 0x05
  | 5 => 0x06
  | 6 => 0x07
  | 7 => 0x08
  | 8 => 0x09
  | 9 => 0x0A
  | 10 => 0x0B
  | 11 => 0x0C
  | _ => 0x01

/-- Bytes of an element of a format code. -/
def codeBytes (code : Nat) : Nat := 64 / blockCount code

/-- The rounding mode of an MST for an element (R203). -/
def mstMode (c : Core) (rm index : Nat) : Rm :=
  let n := if rm = 6 then c.modeReg.toNat else rm
  modeOf n (some (philox c.seed index 0 0 0))

/-- One tile element converted (R203): its bits and NV, OF, NX. -/
def mstConvert (tf code : Nat) (rm : Rm) (sat : Bool) (x : Nat) : Nat × Bool × Bool × Bool :=
  let src : Elem := if tf = 2 then .int ⟨true, 32⟩ else if tf = 1 then .flt fmtF64 else .flt fmtF32
  let dst : Elem := match floatOf code, integerOf code with
    | some f, _ => .flt f
    | none, some t => .int t
    | none, none => .flt fmtF32
  let r := convertElem src dst rm sat x
  match dst with
  | .flt _ => (r.1, r.2.nv, r.2.of, r.2.nx)
  | .int _ => (r.1, r.2.nv, false, r.2.nx)

/-- The elements of a tile as its format's bits. -/
def Core.tileElements (c : Core) (n : Nat) : List Nat :=
  (c.tileOf n).toList.map fun x => if c.tileFormat n = 1 then x.toNat else x.toNat % 2 ^ 32

/-- Blocks of an MST with its tag option. -/
def taggedBlocks (bs : List Byte) (code : Nat) : List BlockWrite :=
  (List.range (bs.length / 64)).map fun k =>
    { k := k, lane := 0, data := BitVec.ofNat 512 (leValue ((bs.drop (64 * k)).take 64)), mask := BitVec.allOnes 64,
      tag := tagOf code fun _ => 0x7F, tagMask := BitVec.allOnes 5 }

/-- Blocks stored with tags: checked, committed if need be, performed. -/
def storeTagged (a : Word) (ws : List BlockWrite) : Act Bool := do
  let ts ← collect (fun (w : BlockWrite) => do
    let t ← tagTarget (nthBlock a w.k) 64 .store .write
    takesStore t w.mask w.tagMask
    pure t) ws
  if ts.any (·.commits) then commitPoint
  each (fun (w : BlockWrite) => do
    let t ← tagTarget (nthBlock a w.k) 64 .store .write false
    writeBlock t w.data w.mask w.tag w.tagMask) ws
  pure (ts.any (·.commits))

/-- Elements stored one after another: checked, committed if need be, performed. -/
def storePlain (els : List (Word × List Byte)) : Act Bool := do
  let cs ← collect (fun (e : Word × List Byte) => checkElement e.1 e.2) els
  if cs.any id then commitPoint
  each (fun (e : Word × List Byte) => storeElement e.1 e.2) els
  pure (cs.any id)

/-- MST (R202, R203). Its options are checked before its addresses. DESIGN CHOICE (log 41): the rules give the two no order. -/
def actMst (o : VArgs) : Act Unit := do
  let a ← readS o.va o.t
  let opt ← readS o.vb o.t
  vectorIssue
  let n := o.vd.toNat
  tileInterlock n
  let tf ← ask fun c => c.tileFormat n
  require (decide (mstOut opt < 13) && decide (mstRm opt ≠ 7) && !(mstCrest opt && tf = 2)) (.trap { cause := 0x01 })
  let code := mstCode tf (mstOut opt)
  let w := codeBytes code
  aligned a (if mstTag opt then 64 else w)
  let c ← ask id
  let els := c.tileElements n
  let rs := if mstOut opt = 0 then els.map fun x => (x, false, false, false)
    else ((List.range 1024).zip els).map fun (x : Nat × Nat) => mstConvert tf code (mstMode c (mstRm opt) x.1) (mstSat opt) x.2
  let commits ← if mstTag opt then storeTagged a (taggedBlocks (rs.flatMap fun r => leBytes w r.1) code)
    else storePlain (((List.range 1024).zip rs).map fun (x : Nat × Nat × Bool × Bool × Bool) =>
      (a + BitVec.ofNat 64 (x.1 * w), leBytes w x.2.1))
  change fun c => c.raiseMfl (rs.any (·.2.1)) (rs.any (·.2.2.1)) (rs.any (·.2.2.2)) false
  if mstCrest opt then
    change fun c => { c with creg := (els.map fun x => (if tf = 1 then fmtF64 else fmtF32).read x).foldl crestFold c.creg }
  retireAs commits
def execMst (o : VArgs) (s : State) : Host.Outcome State Fault Refusal := finish (actMst o) s

/-! ### MRD, MWR (R204) -/

/-- The row base of a transfer: a multiple of 4, at most 28. -/
def rowBase (x : Word) : Act Nat := do
  require (x.toNat % 4 = 0 && x.toNat ≤ 28) (.trap { cause := 0x04, addr := x })
  pure x.toNat

/-- The type of a transfer matches the tile's format. -/
def typeMatches (ty : BitVec 3) (n : Nat) : Act Unit := fun s =>
  if (s.core.tileFormat n = 1) = (ty = 1) then .ok ((), s) else .error (.trap { cause := 0x12 })

/-- MRD (R204). -/
def actMrd (o : VArgs) : Act Unit := do
  let x ← readS o.vb o.t
  vectorIssue
  let ty := o.ty.toNat
  awaitV ty o.vd.toNat
  let n := o.va.toNat
  tileInterlock n
  let r ← rowBase x
  typeMatches o.ty n
  change fun c => c.deliverLoad ty o.vd.toNat true (((c.tileElements n).drop (32 * r)).take 128)
  retire
def execMrd (o : VArgs) (s : State) : Host.Outcome State Fault Refusal := finish (actMrd o) s

/-- MWR (R204). -/
def actMwr (o : VArgs) : Act Unit := do
  let a ← readLanes o.ty.toNat o.va.toNat o.t
  let x ← readS o.vb o.t
  vectorIssue
  let n := o.vd.toNat
  tileInterlock n
  let r ← rowBase x
  typeMatches o.ty n
  change fun c =>
    let els := c.tileElements n
    c.putTile n (Tile.ofList (els.take (32 * r) ++ a ++ els.drop (32 * r + 128)))
  retire
def execMwr (o : VArgs) (s : State) : Host.Outcome State Fault Refusal := finish (actMwr o) s

/-! ### MCFG (R205) -/

/-- MCFG_MODE (R193, R205). -/
def actMcfgMode (o : VnArgs) : Act Unit := do
  let w ← readS o.va o.t
  vectorIssue
  configInterlock
  require (!badMode w) (.trap { cause := 0x01 })
  change fun c => c.setMode w
  retire
def execMcfgMode (o : VnArgs) (s : State) : Host.Outcome State Fault Refusal := finish (actMcfgMode o) s

/-- MCFG_SCALE (R205). -/
def actMcfgScale (o : VnArgs) : Act Unit := do
  let w ← readS o.va o.t
  vectorIssue
  configInterlock
  change fun c => { c with sa := w.extractLsb' 0 32, sb := w.extractLsb' 32 32 }
  retire
def execMcfgScale (o : VnArgs) (s : State) : Host.Outcome State Fault Refusal := finish (actMcfgScale o) s

end Sys2Proof.Machine
end

