-- ==== Sys2Proof/Machine/Capture.lean ====
section
/-!
DEFINITION. The acts of the instructions that a prefix may precede and that REPB captures: the 16-bit forms and majors 0x14 to 0x1F
(R87, R218). Each is the act that the instruction has on its own.
-/

namespace Sys2Proof.Machine

/-- The act of a capturable instruction; any other is illegal here (R87, R218). -/
def actOf (i : Instr) : Act Unit :=
  match i with
  | .fadd o => actFadd o
  | .fsub o => actFsub o
  | .fmul o => actFmul o
  | .ffma o => actFfma o
  | .ffms o => actFfms o
  | .fnma o => actFnma o
  | .fdiv o => actFdiv o
  | .fsqrt o => actFsqrt o
  | .fmin o => actFmin o
  | .fmax o => actFmax o
  | .fabs o => actFabs o
  | .fneg o => actFneg o
  | .fcpys o => actFcpys o
  | .frnd o => actFrnd o
  | .iadd o => actIadd o
  | .isub o => actIsub o
  | .imul o => actImul o
  | .imulh o => actImulh o
  | .imulhu o => actImulhu o
  | .iand o => actIand o
  | .ior o => actIor o
  | .ixor o => actIxor o
  | .ishl o => actIshl o
  | .ishr o => actIshr o
  | .isar o => actIsar o
  | .imin o => actImin o
  | .imax o => actImax o
  | .iabs o => actIabs o
  | .iadds o => actIadds o
  | .isubs o => actIsubs o
  | .ipopc o => actIpopc o
  | .iclz o => actIclz o
  | .iminu o => actIminu o
  | .imaxu o => actImaxu o
  | .fceq o => actFceq o
  | .fclt o => actFclt o
  | .fcle o => actFcle o
  | .fcun o => actFcun o
  | .fcne o => actFcne o
  | .iceq o => actIceq o
  | .iclt o => actIclt o
  | .icltu o => actIcltu o
  | .icne o => actIcne o
  | .fclass o => actFclass o
  | .mand o => actMand o
  | .mor o => actMor o
  | .mxor o => actMxor o
  | .mandn o => actMandn o
  | .mnot o => actMnot o
  | .cvt o => actCvt o
  | .cvts o => actCvts o
  | .frcp o => actFrcp o
  | .frsq o => actFrsq o
  | .fex2 o => actFex2 o
  | .flg2 o => actFlg2 o
  | .fsin o => actFsin o
  | .fcos o => actFcos o
  | .ftanh o => actFtanh o
  | .rsum o => actRsum o
  | .rmax o => actRmax o
  | .rmin o => actRmin o
  | .ramax o => actRamax o
  | .argmax o => actArgmax o
  | .scan o => actScan o
  | .voteAny o => actVoteAny o
  | .voteAll o => actVoteAll o
  | .voteNone o => actVoteNone o
  | .popm o => actPopm o
  | .bcast o => actBcast o
  | .xtr o => actXtr o
  | .ins o => actIns o
  | .perm o => actPerm o
  | .slide o => actSlide o
  | .iota o => actIota o
  | .vld o => actVld o
  | .vlds o => actVlds o
  | .vst o => actVst o
  | .vsts o => actVsts o
  | .vgath o => actVgath o
  | .vscat o => actVscat o
  | .vldt o => actVldt o
  | .vldl o => actVldl o
  | .vstl o => actVstl o
  | .vtag o => actVtag o
  | .vstag o => actVstag o
  | .qnt o => actQnt o
  | .dqnt o => actDqnt o
  | .unpk o => actUnpk o
  | .unpkT o => actUnpkT o
  | .pack o => actPack o
  | .ctab o => actCtab o
  | .ctenc o => actCtenc o
  | .rng o => actRng o
  | .ctld o => actCtld o
  | .mma o => actMma o
  | .mz o => actMz o
  | .mld o => actMld o
  | .mst o => actMst o
  | .mrd o => actMrd o
  | .mwr o => actMwr o
  | .mcfgMode o => actMcfgMode o
  | .mcfgScale o => actMcfgScale o
  | .vmov16 o => actVmov16 o
  | .fadd16 o => actFadd16 o
  | .fsub16 o => actFsub16 o
  | .fmul16 o => actFmul16 o
  | .fmax16 o => actFmax16 o
  | .fmin16 o => actFmin16 o
  | .fabs16 o => actFabs16 o
  | .fneg16 o => actFneg16 o
  | .iadd16 o => actIadd16 o
  | .isub16 o => actIsub16 o
  | .iand16 o => actIand16 o
  | .ior16 o => actIor16 o
  | .ixor16 o => actIxor16 o
  | .ishl16 o => actIshl16 o
  | .ishr16 o => actIshr16 o
  | .imul16 o => actImul16 o
  | _ => illegal

end Sys2Proof.Machine
end

