-- ==== Sys2Proof/Machine/Tok.lean ====
section
/-!
DEFINITION. Sequences and token watchpoints (R223 to R244): the sequence record, committing and matching, actions, lane codes, traps,
and the TOK instructions.
-/

namespace Sys2Proof.Machine

/-! ### The sequence record (R223, R224, R243) -/

/-- A watch slot as the record stores it (R224), its reserved CTL bits included. -/
structure Watch where
  kind : Nat
  action : Nat
  trap : Bool
  plen : Nat
  wild : Nat
  cntsel : Nat
  reserved : Nat
  p : List Nat
  deriving DecidableEq, Repr

/-- The kind that acts: KIND 3 acts as empty (R243). -/
def Watch.kindNow (w : Watch) : Nat := if w.kind = 3 then 0 else w.kind

/-- The action that acts: a budget's FORK or INJECT acts as NOTIFY (R243). -/
def Watch.actionNow (w : Watch) : Nat := if w.kind = 2 && (w.action = 1 || w.action = 2) then 3 else w.action

/-- The pattern length that acts: one above 8 acts as 8 (R243). -/
def Watch.plenNow (w : Watch) : Nat := min 8 w.plen

/-- A sequence as its record stores it (R223): `lo` and `hi` with their reserved byte, values that a supervisor's edit has left kept. -/
structure Seq where
  v : Bool
  stop : Bool
  hv : Nat
  ndraft : Nat
  ninj : Nat
  injslot : Nat
  parent : Nat
  forked : Bool
  len : Nat
  cap : Nat
  cnt0 : Nat
  thr0 : Nat
  cnt1 : Nat
  thr1 : Nat
  lo : Nat
  hi : Nat
  h : List Nat
  d : List Nat
  i : List Nat
  slots : List Watch
  deriving DecidableEq, Repr

/-- An empty watch slot, and a sequence of zeros. -/
def Watch.empty : Watch := ⟨0, 0, false, 0, 0, 0, 0, List.replicate 8 0⟩
def Seq.zero : Seq :=
  { v := false, stop := false, hv := 0, ndraft := 0, ninj := 0, injslot := 0, parent := 0, forked := false, len := 0, cap := 0,
    cnt0 := 0, thr0 := 0, cnt1 := 0, thr1 := 0, lo := 0, hi := 0, h := List.replicate 8 0, d := List.replicate 8 0,
    i := List.replicate 8 0, slots := List.replicate 4 Watch.empty }

/-- A little-endian field of a byte list. -/
def fieldAt (bs : List Byte) (off n : Nat) : Nat := leValue ((bs.drop off).take n)

/-- Tokens of 3 bytes at an offset. -/
def tokensAt (bs : List Byte) (off : Nat) : List Nat := (List.range 8).map fun k => fieldAt bs (off + 3 * k) 3

/-- A slot's control word and pattern (R224). -/
def watchOf (ctl : Nat) (p : List Nat) : Watch :=
  { kind := ctl % 4
    action := ctl / 4 % 4
    trap := ctl.testBit 4
    plen := ctl / 2 ^ 5 % 16
    wild := ctl / 2 ^ 9 % 2 ^ 8
    cntsel := ctl / 2 ^ 17 % 2
    reserved := ctl / 2 ^ 18
    p := p }

/-- A slot's control word. -/
def Watch.ctl (w : Watch) : Nat :=
  w.kind + w.action * 4 + (if w.trap then 2 ^ 4 else 0) + w.plen * 2 ^ 5 + w.wild * 2 ^ 9 + w.cntsel * 2 ^ 17 +
    w.reserved * 2 ^ 18

/-- A record from its 224 bytes. -/
def seqOf (bs : List Byte) : Seq :=
  let w := fieldAt bs 0 4
  { v := w.testBit 0
    stop := w.testBit 1
    hv := w / 2 ^ 2 % 16
    ndraft := w / 2 ^ 6 % 16
    ninj := w / 2 ^ 10 % 16
    injslot := w / 2 ^ 14 % 4
    parent := w / 2 ^ 16 % 32
    forked := w.testBit 21
    len := fieldAt bs 0x08 4
    cap := fieldAt bs 0x0C 4
    cnt0 := fieldAt bs 0x10 4
    thr0 := fieldAt bs 0x14 4
    cnt1 := fieldAt bs 0x18 4
    thr1 := fieldAt bs 0x1C 4
    lo := fieldAt bs 0x20 4
    hi := fieldAt bs 0x24 4
    h := tokensAt bs 0x28
    d := tokensAt bs 0x40
    i := tokensAt bs 0x58
    slots := (List.range 4).map fun n => watchOf (fieldAt bs (0x70 + 28 * n) 4) (tokensAt bs (0x74 + 28 * n)) }

/-- Tokens as bytes. -/
def tokenBytes (ts : List Nat) : List Byte := ts.flatMap (leBytes 3)

/-- The 224 bytes of a record. -/
def Seq.bytes (q : Seq) : List Byte :=
  leBytes 4 ((if q.v then 1 else 0) + (if q.stop then 2 else 0) + q.hv * 2 ^ 2 + q.ndraft * 2 ^ 6 + q.ninj * 2 ^ 10 +
      q.injslot * 2 ^ 14 + q.parent * 2 ^ 16 + (if q.forked then 2 ^ 21 else 0)) ++
    leBytes 4 0 ++ leBytes 4 q.len ++ leBytes 4 q.cap ++ leBytes 4 q.cnt0 ++ leBytes 4 q.thr0 ++ leBytes 4 q.cnt1 ++ leBytes 4 q.thr1 ++
    leBytes 4 q.lo ++ leBytes 4 q.hi ++ tokenBytes q.h ++ tokenBytes q.d ++ tokenBytes q.i ++
    q.slots.flatMap fun w => leBytes 4 w.ctl ++ tokenBytes w.p

/-- The physical address of a record of the core whose turn it is. -/
def seqAddr (s : State) (q : Nat) : Nat := scratch s s.cid (seqOff q)

/-- The record of a sequence, and the package with it replaced. -/
def seqAt (s : State) (q : Nat) : Seq := seqOf (physBytes s (seqAddr s q) 224)
def putSeq (q : Nat) (x : Seq) (s : State) : State := physPut s (seqAddr s q) x.bytes

/-- The four blocks that a record lies in, each with its place and its address in the own scratchpad (R223). -/
def seqBlocks (s : State) (q : Nat) : List (Nat × Word) :=
  (List.range 4).map fun k =>
    (scratch s s.cid (seqOff q / 64 * 64 + 64 * k), BitVec.ofNat 64 (2 ^ 63 + 2 ^ 60 + (seqOff q / 64 * 64 + 64 * k)))

/-- A record read: an uncorrectable error in a block of it is reported (R71, R301). Each TOK instruction but TREAD reads the records of its
sequences as a whole, at issue. DEDUCED (log 31). -/
def readSeq (q : Nat) : Act Unit := do each (fun b => readable b.1 b.2) (← askS fun s => seqBlocks s q)

/-- A record that is only written merges into no part of a block that holds an uncorrectable error (R301). -/
def takesSeq (q : Nat) : Act Unit := fun s =>
  match (seqBlocks s q).find? fun b => s.ecc.contains (blockOf b.1) with
  | some b => .error (.trap (trapAt 0x0C b.2))
  | none => .ok ((), s)

/-! ### Committing and matching (R225, R226) -/

/-- AppendToken (R225): the sequence, and which counters were incremented. -/
def Seq.append (q : Seq) (x : Nat) : Seq × Bool × Bool :=
  let x := x % 2 ^ 24
  let inc0 := decide (q.cnt0 < 2 ^ 32 - 1)
  let inc1 := decide (q.lo % 2 ^ 24 ≤ x) && decide (x ≤ q.hi % 2 ^ 24) && decide (q.cnt1 < 2 ^ 32 - 1)
  ({ q with
      h := x :: q.h.take 7
      hv := if q.hv < 8 then q.hv + 1 else q.hv
      len := (q.len + 1) % 2 ^ 32
      cnt0 := if inc0 then q.cnt0 + 1 else q.cnt0
      cnt1 := if inc1 then q.cnt1 + 1 else q.cnt1 }, inc0, inc1)

/-- Slot n of a sequence. -/
def Seq.slot (q : Seq) (n : Nat) : Watch := q.slots.getD n Watch.empty

/-- A pattern slot matches the tail (R226); PLEN 0 never does (R243). -/
def Seq.matchesTail (q : Seq) (w : Watch) : Bool :=
  w.plen ≠ 0 && decide (w.plenNow ≤ q.hv) &&
    (List.range w.plenNow).all fun j => w.wild.testBit j || w.p.getD j 0 = q.h.getD (w.plenNow - 1 - j) 0

/-- A slot hits (R226). -/
def Seq.slotHit (q : Seq) (inj inc0 inc1 : Bool) (w : Watch) : Bool :=
  match w.kindNow with
  | 1 => !(inj && (w.action = 1 || w.action = 2)) && q.matchesTail w
  | 2 => if w.cntsel = 0 then q.thr0 ≠ 0 && inc0 && q.cnt0 = q.thr0 else q.thr1 ≠ 0 && inc1 && q.cnt1 = q.thr1
  | _ => false

/-- SlotHits (R226). -/
def Seq.hits (q : Seq) (inj inc0 inc1 : Bool) : List Nat := (List.range 4).filter fun n => q.slotHit inj inc0 inc1 (q.slot n)

/-- Slots as bits. -/
def slotBits (ns : List Nat) : Nat := (ns.map fun n => 2 ^ n).sum

/-! ### Lane codes, traps, and what an instruction changes (R227 to R231) -/

/-- The lane code (R230). -/
structure LaneCode where
  code : Nat := 0
  hit : Nat := 0
  trap : Bool := false
  ff : Bool := false
  full : Bool := false
  stopd : Bool := false
  fseq : Nat := 0
  ninj : Nat := 0
  nconf : Nat := 0
  ihit : Nat := 0
  deriving DecidableEq, Repr

/-- Its 32 bits. -/
def LaneCode.bits (c : LaneCode) : Nat :=
  c.code + c.hit * 2 ^ 4 + (if c.trap then 2 ^ 8 else 0) + (if c.ff then 2 ^ 9 else 0) + (if c.full then 2 ^ 10 else 0) +
    (if c.stopd then 2 ^ 11 else 0) + c.fseq * 2 ^ 12 + c.ninj * 2 ^ 17 + c.nconf * 2 ^ 21 + c.ihit * 2 ^ 25

/-- A code that is only a CODE. -/
def LaneCode.only (n : Nat) : LaneCode := { code := n }

/-- A sequence trap (R231): sequence, token, slot, action, index in an injected group if there, lane, draft position, LEN. -/
structure SeqTrap where
  q : Nat
  token : Nat
  slot : Nat
  action : Nat
  injected : Option Nat
  lane : Nat
  pos : Nat
  len : Nat
  deriving DecidableEq, Repr

/-- What an instruction has made of the table, WNOTE and the traps so far, and the sequences whose records it has read. -/
structure TokWork where
  tab : List Seq
  note : BitVec 5
  traps : List SeqTrap
  used : List Nat := []
  deriving DecidableEq, Repr

/-- A sequence of the table, and the table with it replaced. -/
def TokWork.seq (t : TokWork) (q : Nat) : Seq := t.tab.getD q Seq.zero
def TokWork.put (t : TokWork) (q : Nat) (x : Seq) : TokWork := { t with tab := t.tab.set q x }

/-- The table with the record of a sequence read. -/
def TokWork.use (t : TokWork) (q : Nat) : TokWork := { t with used := t.used ++ [q] }

/-- Slots noted in WNOTE.HIT (R227). -/
def TokWork.noteHits (t : TokWork) (ns : List Nat) : TokWork := { t with note := t.note ||| BitVec.ofNat 5 (slotBits ns) }

/-- A stopped sequence (R228). -/
def Seq.stopped (q : Seq) : Seq := { q with stop := true, ndraft := 0 }

/-! ### Actions (R228, R229) -/

/-- FORK (R228): the lowest sequence that is not valid becomes a copy; without one the action is taken as NOTIFY. The records up to the one
that it takes are read. -/
def forkSeq (q : Nat) (c : LaneCode) (t : TokWork) : LaneCode × TokWork :=
  match (List.range 32).find? fun n => !(t.seq n).v with
  | some n =>
    ({ c with fseq := n },
      ((List.range (n + 1)).foldl TokWork.use t).put n { t.seq q with ndraft := 0, stop := false, parent := q, forked := true, d := List.replicate 8 0 })
  | none => ({ c with code := 4, ff := true }, { (List.range 32).foldl TokWork.use t with note := t.note ||| 16 })

/-- The tokens of the inject buffer, ignored where its slot is no INJECT slot (R243). A slot that is empty, or of a kind other than 1, is
none, whatever its ACTION bits. DEDUCED (log 31). -/
def Seq.injected (q : Seq) : List Nat :=
  if (q.slot q.injslot).kind = 1 && (q.slot q.injslot).action = 2 then q.i.take (min 8 q.ninj) else []

/-- The tokens of a group joined one by one: the first hit's slot, index and token (R229). -/
def joinGroup (q : Nat) : Nat → List Nat → Option (Nat × Nat × Nat) → LaneCode → TokWork → Option (Nat × Nat × Nat) × LaneCode × TokWork
  | _, [], first, c, t => (first, c, t)
  | j, x :: xs, first, c, t =>
    let r := (t.seq q).append x
    let g := r.1.hits true r.2.1 r.2.2
    let t := (t.put q r.1).noteHits g
    let first := match first, g with
      | none, n :: _ => some (n, j, x)
      | f, _ => f
    joinGroup q (j + 1) xs first { c with ihit := Nat.lor c.ihit (slotBits g) } t

/-- InjectGroup (R229). -/
def injectGroup (q : Nat) (c : LaneCode) (t : TokWork) : Option (Nat × Nat × Nat) × LaneCode × TokWork :=
  let x := t.seq q
  if x.cap < x.len + x.injected.length then (none, { c with full := true }, t)
  else
    let (first, c, t) := joinGroup q 0 x.injected none c t
    let c := { c with ninj := x.injected.length }
    match first with
    | some (n, _, _) =>
      if ((t.seq q).slot n).actionNow = 0 then (first, { c with stopd := true }, t.put q (t.seq q).stopped) else (first, c, t)
    | none => (none, c, t)

/-- The winner's action taken: the group's first hit where it injected. -/
def takeAction (q n : Nat) (c : LaneCode) (t : TokWork) : Option (Nat × Nat × Nat) × LaneCode × TokWork :=
  match ((t.seq q).slot n).actionNow with
  | 0 => (none, { c with stopd := true }, t.put q (t.seq q).stopped)
  | 1 =>
    let r := forkSeq q c t
    (none, r.1, r.2)
  | 2 => injectGroup q c t
  | _ => (none, c, t)

/-- The trap of R231, if one applies: the winner's, or its group's first hit's. -/
def sendTrap (q x n lane pos : Nat) (first : Option (Nat × Nat × Nat)) (c : LaneCode) (t : TokWork) : LaneCode × TokWork :=
  let s := t.seq q
  let trap (slot token : Nat) (index : Option Nat) : SeqTrap :=
    { q := q, token := token % 2 ^ 24, slot := slot, action := (s.slot slot).actionNow, injected := index, lane := lane, pos := pos,
      len := s.len }
  if (s.slot n).trap then ({ c with trap := true }, { t with traps := t.traps ++ [trap n x none] })
  else match first with
    | some (m, j, y) =>
      if (s.slot m).trap then ({ c with trap := true }, { t with traps := t.traps ++ [trap m y (some j)] }) else (c, t)
    | none => (c, t)

/-- CommitLane (R239). -/
def commitLane (q x lane pos : Nat) (c : LaneCode) (t : TokWork) : LaneCode × TokWork :=
  let s := t.seq q
  if !s.v then ({ c with code := 10 }, t)
  else if s.stop then ({ c with code := 8 }, t)
  else if s.cap ≤ s.len then ({ c with code := 9 }, t)
  else
    let r := ({ s with ndraft := 0 } : Seq).append x
    let h := r.1.hits false r.2.1 r.2.2
    let t := (t.put q r.1).noteHits h
    match h with
    | [] => ({ c with code := 0, hit := 0 }, t)
    | n :: _ =>
      let c := { c with hit := slotBits h, code := (r.1.slot n).actionNow + 1 }
      let (first, c, t) := takeAction q n c t
      sendTrap q x n lane pos first c t

/-- The drafts that TCONF confirms, up to a hit or a full sequence (R241). -/
def confirmDrafts (q lane : Nat) : Nat → List Nat → LaneCode → TokWork → LaneCode × TokWork
  | _, [], c, t => (c, t)
  | j, x :: xs, c, t =>
    let r := commitLane q x lane j c t
    if r.1.code = 9 then r
    else
      let c := { r.1 with nconf := j + 1 }
      if c.hit ≠ 0 then (c, r.2) else confirmDrafts q lane (j + 1) xs c r.2

/-- One lane of TCONF (R241). -/
def confirmLane (q k lane : Nat) (t : TokWork) : LaneCode × TokWork :=
  let s := t.seq q
  if !s.v then (.only 10, t)
  else if s.stop then (.only 8, t)
  else confirmDrafts q lane 0 (s.d.take (min k (min 8 s.ndraft))) {} (t.put q { s with ndraft := 0 })

/-- One lane of TDRAFT (R240). -/
def draftLane (q x : Nat) (t : TokWork) : LaneCode × TokWork :=
  let s := t.seq q
  if !s.v then (.only 10, t)
  else if s.stop then (.only 8, t)
  else if 8 ≤ s.ndraft then (.only 11, t)
  else ({}, t.put q { s with d := s.d.set s.ndraft (x % 2 ^ 24), ndraft := s.ndraft + 1 })

/-! ### Per-lane instructions (R231, R232, R234, R235) -/

/-- Participating lanes performed in ascending order: a code for each lane, 12 where bit 31 is set, 13 where the sequence has trapped
in this instruction. -/
def performLanes (m : Mask) (f : Nat → Nat → Nat → TokWork → LaneCode × TokWork) :
    List (Nat × Nat × Nat) → TokWork → List Nat × TokWork
  | [], t => ([], t)
  | (i, a, b) :: rest, t =>
    let q := a % 32
    let r : LaneCode × TokWork :=
      if !m.getLsbD i then ({}, t)
      else if a.testBit 31 then (.only 12, t)
      else if t.traps.any (·.q = q) then (.only 13, t)
      else f i q b (t.use q)
    let rs := performLanes m f rest r.2
    (r.1.bits :: rs.1, rs.2)

/-- The packet of a sequence trap (R231): its region starts at the following instruction, since the trapping one has committed. FLAGS bit 2
stays clear also where the sender is a member of a caravan. DESIGN CHOICE (log 18): R74 and R231 do not say together. -/
def seqPacket (conf : Bool) (x : SeqTrap) (s : State) : Packet :=
  { packetOf { cause := 0x0E } s with
    flags := 0x02
    rpc := s.core.next
    member := BitVec.ofNat 16 x.q
    det1 := BitVec.ofNat 32 (x.token + x.slot * 2 ^ 24 + x.action * 2 ^ 26 + (if x.injected.isSome then 2 ^ 28 else 0) +
      (if conf then 2 ^ 29 else 0))
    det2 := BitVec.ofNat 64 (x.len + x.lane * 2 ^ 32 + x.pos % 16 * 2 ^ 39 + x.injected.getD 0 * 2 ^ 43) }

/-- The work of an instruction stored: changed records and WNOTE. -/
def storeWork (t : TokWork) (s : State) : State :=
  let s := (List.range 32).foldl (fun s q => if t.seq q = seqAt s q then s else putSeq q (t.seq q) s) s
  { s with core := { s.core with wnote := t.note } }

/-- The packets of an instruction that has made its changes, sent in lane order. Each waits until the one before has been accepted, the
instruction retires once the last has been, and aborts wait for it (R76, R232, R235, R247). -/
def sendTraps : List Packet → Act Unit
  | p :: ps => do
    unless ← ask infoWaits do
      changeS fun s => queuePacket s.cid p s
      change fun c => { c with trapsDue := some ps }
    waitCommitted 0x34 true
  | [] => do
    if ← ask infoWaits then waitCommitted 0x34 true else retireCommit

/-- What a per-lane TOK instruction makes of the table, WNOTE and vd, from the table as it stands. -/
def tokWork (f : Nat → Nat → Nat → TokWork → LaneCode × TokWork) (a b : VReg) (s : State) : List Nat × TokWork :=
  performLanes (activeMask s.core) f ((List.range 128).zip ((VReg.nats a).zip (VReg.nats b)))
    { tab := (List.range 32).map (seqAt s), note := s.core.wnote, traps := [] }

/-- A per-lane TOK instruction (R232, R235): it commits; at its retirement the table, WNOTE and vd change in one step, and its packets
go out. An edit of the table (R243) so falls before that step or after it, and whoever holds a packet finds the changes made (R231). One
that traps while an informational packet waits has changed nothing yet: log 31. -/
def tokLanes (conf : Bool) (f : Nat → Nat → Nat → TokWork → LaneCode × TokWork) (o : VArgs) : Act Unit := do
 match ← ask (·.trapsDue) with
 | some ps => sendTraps ps
 | none =>
  let a ← readV o.va.toNat o.t
  let b ← readV o.vb.toNat o.t
  vectorIssue
  awaitV 0 o.vd.toNat
  each readSeq (← askS fun s => (tokWork f a b s).2.used.eraseDups)
  commitPoint
  let r ← askS (tokWork f a b)
  if !r.2.traps.isEmpty && (← ask infoWaits) then waitCommitted 0x34 true
  else
    let ps ← askS fun s => r.2.traps.map fun x => seqPacket conf x s
    changeS (storeWork r.2)
    change fun c => c.writeLanes 0 o.vd.toNat r.1
    if ps.isEmpty then retireCommit else sendTraps ps

/-- TCOMMIT (R239). -/
def actTcommit (o : VArgs) : Act Unit := tokLanes false (fun i q x t => commitLane q (x % 2 ^ 24) i 0 {} t) o
def execTcommit (o : VArgs) (s : State) : Host.Outcome State Fault Refusal := finish (actTcommit o) s

/-- TDRAFT (R240). -/
def actTdraft (o : VArgs) : Act Unit := tokLanes false (fun _ q x t => draftLane q x t) o
def execTdraft (o : VArgs) (s : State) : Host.Outcome State Fault Refusal := finish (actTdraft o) s

/-- TCONF (R241). -/
def actTconf (o : VArgs) : Act Unit := tokLanes true (fun i q k t => confirmLane q (k % 16) i t) o
def execTconf (o : VArgs) (s : State) : Host.Outcome State Fault Refusal := finish (actTconf o) s

/-! ### TSEQ, WSET, WCLR, TREAD (R236 to R238, R242) -/

/-- A status written to d after the commit, with the sequence that it leaves. -/
def tokStatus (d : BitVec 5) (q : Nat) (x : Nat × Option Seq) : Act Unit := do
  if x.2.isSome then takesSeq q
  commitPoint
  match x.2 with
  | some y => changeS (putSeq q y)
  | none => pure ()
  writeS d (BitVec.ofNat 64 x.1)
  retireCommit

/-- What TSEQ makes of a descriptor (R236). -/
def initSeq (bs : List Byte) : Nat × Option Seq :=
  let len := fieldAt bs 0x00 4
  let cap := fieldAt bs 0x04 4
  let nh := fieldAt bs 0x18 4 % 16
  if cap = 0 || cap < len || 8 < nh || len < nh then (1, none)
  else
    (0, some { Seq.zero with
      v := true
      len := len
      cap := cap
      thr0 := fieldAt bs 0x08 4
      thr1 := fieldAt bs 0x0C 4
      lo := fieldAt bs 0x10 3
      hi := fieldAt bs 0x14 3
      hv := nh
      h := (List.range 8).map fun k => if k < nh then fieldAt bs (0x20 + 4 * (nh - 1 - k)) 3 else 0 })

/-- TSEQ, the initialising form (R235, R236). -/
def actTseq (o : VArgs) : Act Unit := do
  let a ← readS o.va o.t
  let q ← readS o.vb o.t
  awaitS o.vd
  aligned a 8
  let r ← readImageAt a 64
  orderCommit a 64
  tokStatus o.vd (q.toNat % 32) (initSeq r.1)
def execTseq (o : VArgs) (s : State) : Host.Outcome State Fault Refusal := finish (actTseq o) s

/-- TSEQ_FREE (R236). -/
def actTseqFree (o : TfArgs) : Act Unit := do
  let q ← readS o.vb o.t
  awaitS o.vd
  tokStatus o.vd (q.toNat % 32) (0, some Seq.zero)
def execTseqFree (o : TfArgs) (s : State) : Host.Outcome State Fault Refusal := finish (actTseqFree o) s

/-- The slot that owns the inject buffer is n: by NINJ and INJSLOT alone, in an edited record whose slots say otherwise (R238). DEDUCED
(log 31). -/
def Seq.ownsInject (x : Seq) (n : Nat) : Bool := x.ninj ≠ 0 && x.injslot = n

/-- The inject buffer emptied. -/
def Seq.noInject (x : Seq) : Seq := { x with ninj := 0, i := List.replicate 8 0 }

/-- What WSET makes of a descriptor (R237). -/
def installSlot (x : Seq) (n : Nat) (bs : List Byte) : Nat × Option Seq :=
  let ctl := fieldAt bs 0x00 4
  let kind := ctl % 4
  let action := ctl / 4 % 4
  let plen := ctl / 2 ^ 5 % 16
  let ni := fieldAt bs 0x04 4 % 16
  if !x.v then (1, none)
  else if kind = 0 || kind = 3 || (kind = 1 && (plen = 0 || 8 < plen)) || (kind = 2 && (action = 1 || action = 2)) ||
      (action = 2 && (ni = 0 || 8 < ni)) then (2, none)
  else if action = 2 && x.ninj ≠ 0 && x.injslot ≠ n then (3, none)
  else
    let p := (List.range 8).map fun j => if kind = 1 && j < plen then fieldAt bs (0x08 + 4 * j) 3 else 0
    let w : Watch := { watchOf ctl p with reserved := 0 }
    let x := if x.ownsInject n && action ≠ 2 then x.noInject else x
    let x := { x with slots := x.slots.set n w }
    (0, some (if action = 2 then
      { x with
        ninj := ni
        injslot := n
        i := (List.range 8).map fun j => if j < ni then fieldAt bs (0x28 + 4 * j) 3 else x.i.getD j 0 }
    else x))

/-- WSET (R235, R237). -/
def actWset (o : VArgs) : Act Unit := do
  let a ← readS o.va o.t
  let w ← readS o.vb o.t
  awaitS o.vd
  aligned a 8
  let r ← readImageAt a 72
  orderCommit a 72
  let q := w.toNat % 32
  readSeq q
  let x ← askS fun s => seqAt s q
  tokStatus o.vd q (installSlot x (w.toNat / 2 ^ 8 % 4) r.1)
def execWset (o : VArgs) (s : State) : Host.Outcome State Fault Refusal := finish (actWset o) s

/-- Slot n cleared (R238). -/
def Seq.clearSlot (x : Seq) (n : Nat) : Seq :=
  let y := if x.ownsInject n then x.noInject else x
  { y with slots := y.slots.set n Watch.empty }

/-- WCLR (R238). -/
def actWclr (o : VArgs) : Act Unit := do
  let w ← readS o.va o.t
  readSeq (w.toNat % 32)
  commitPoint
  changeS fun s =>
    let q := w.toNat % 32
    if (seqAt s q).v then putSeq q ((seqAt s q).clearSlot (w.toNat / 2 ^ 8 % 4)) s else s
  retireCommit
def execWclr (o : VArgs) (s : State) : Host.Outcome State Fault Refusal := finish (actWclr o) s

/-- TREAD (R242). -/
def actTread (o : VArgs) : Act Unit := do
  let a ← readS o.va o.t
  let w ← readS o.vb o.t
  awaitS o.vd
  require (decide (w.toNat ≤ 55)) (.trap { cause := 0x04, addr := w })
  let p ← askS fun s => seqAddr s (a.toNat % 32) + 4 * w.toNat
  readable p (BitVec.ofNat 64 (2 ^ 63 + 2 ^ 60 + 0xDA400 + 224 * (a.toNat % 32) + 4 * w.toNat))
  let v ← askS fun s => physNat s p 4
  writeS o.vd (BitVec.ofNat 64 v)
  retire
def execTread (o : VArgs) (s : State) : Host.Outcome State Fault Refusal := finish (actTread o) s

end Sys2Proof.Machine
end

