-- ==== Sys2Proof/Machine/Prefix.lean ====
section
/-!
DEFINITION. The prefix and the instruction that it governs, as one instruction (R86 to R88), and the hint region (R102).
-/

namespace Sys2Proof.Machine

/-- What a prefix word says (R86). -/
def Pfx.of (o : PArgs) : Pfx := ⟨o.mask, o.zero = 1, o.rm, o.usec = 1, o.c⟩

/-- A word that may follow a prefix: majors 0x14 to 0x1E, or TCOMMIT, judged as fetched (R87). -/
def mayFollow (w : BitVec 32) : Bool :=
  w.getLsbD 0 && ((0x14 ≤ (majorOf w).toNat && (majorOf w).toNat ≤ 0x1E) ||
    match read32 w with
    | .ok (.tcommit _) => true
    | _ => false)

/-- The instruction of a pair, where neither its own word nor the prefix makes it illegal (R86, R99, R103). -/
def pairInstr (o : PArgs) (w : BitVec 32) : Option Instr :=
  match decode32 w with
  | .ok i => if i.illegalUnder o then none else some i
  | .error _ => none

/-- The act of an instruction that a prefix governs. -/
def prefixedAct (i : Instr) : Act Unit :=
  match i with
  | .tcommit o => actTcommit o
  | i => actOf i

/-- The word after the prefix in issue; a fault of its fetch is one of the pair (R87, R139). -/
def fetchSecond : Act (BitVec 32) := fun s => fetchInsn (s.core.pc + 4) s

/-- PREFIX (R86 to R88): the pair issues as one instruction. A misplaced prefix faults with the prefix's own word. -/
def actPfx (o : PArgs) (s : State) : State :=
  match fetchSecond s with
  | .error e => fetchStops e s
  | .ok (w, t) =>
    if !mayFollow w then takeFault { cause := 0x01 } t
    else
      let t := { t with core := { t.core with insn := w, pfx := some (Pfx.of o) } }
      match pairInstr o w with
      | none => takeFault { cause := 0x01 } t
      | some i => after (prefixedAct i) t
def execPfx (o : PArgs) (s : State) : Host.Outcome State Fault Refusal := .next (actPfx o s)

/-- HINT (R102): nothing but PC changes. -/
def actHint (_o : HintArgs) : Act Unit := retire
def execHint (o : HintArgs) (s : State) : Host.Outcome State Fault Refusal := finish (actHint o) s

end Sys2Proof.Machine
end

