-- ==== Sys2Proof/Machine/Rep.lean ====
section
/-!
DEFINITION. The repetition buffer (R65, R101, R218 to R222): REPB, the capture of the instructions that follow it, REPX, the
sequencer's issue of one captured instruction, and REPW.
-/

namespace Sys2Proof.Machine

/-! ### The registers that a captured instruction writes (R219) -/

/-- A vector destination of a type: both registers of a pair, renamed by its even number. -/
structure Dest where
  vector : Bool
  reg : Nat
  pair : Bool
  deriving DecidableEq, Repr

/-- A vector destination of a type, and a scalar destination. -/
def vdest (ty vd : Nat) : List Dest := [⟨true, vd, isPairTy ty⟩]
def sdest (d : BitVec 5) : List Dest := if d = 0 then [] else [⟨false, d.toNat, false⟩]

/-- The register destinations of a capturable instruction, before renaming. -/
def captureDests (i : Instr) : List Dest :=
  match i with
  | .fadd o | .fsub o | .fmul o | .ffma o | .ffms o | .fnma o | .fdiv o | .fsqrt o | .fmin o | .fmax o | .fabs o | .fneg o
  | .fcpys o | .frnd o | .iadd o | .isub o | .imul o | .imulh o | .imulhu o | .iand o | .ior o | .ixor o | .ishl o | .ishr o
  | .isar o | .imin o | .imax o | .iabs o | .iadds o | .isubs o | .ipopc o | .iclz o | .iminu o | .imaxu o | .fclass o
  | .frcp o | .frsq o | .fex2 o | .flg2 o | .fsin o | .fcos o | .ftanh o | .scan o | .bcast o | .ins o | .perm o | .slide o
  | .iota o | .vld o | .vlds o | .vgath o | .vldt o | .vldl o | .mrd o => vdest o.ty.toNat o.vd.toNat
  | .cvt o | .cvts o => vdest (codeTy o.vb.toNat) o.vd.toNat
  | .dqnt o | .ctab o | .ctenc o | .rng o => vdest 0 o.vd.toNat
  | .unpkT o => vdest 0 o.vd.toNat
  | .rsum o | .rmax o | .rmin o | .ramax o | .argmax o | .popm o | .xtr o | .vtag o => sdest o.vd
  | .voteAny o | .voteAll o | .voteNone o => sdest o.vd
  | .vmov16 o | .fadd16 o | .fsub16 o | .fmul16 o | .fmax16 o | .fmin16 o | .fabs16 o | .fneg16 o | .iadd16 o | .isub16 o
  | .iand16 o | .ior16 o | .ixor16 o | .ishl16 o | .ishr16 o | .imul16 o => vdest 0 o.vd.toNat
  | _ => []

/-- The registers that a destination names in an iteration: of a pair renamed to the last register, that one alone, since the
instruction faults there (R65). -/
def renamedRegs (r : Rep) (i : Nat) (d : Dest) : List (Bool × Nat) :=
  if d.vector then
    let k := repName r d.reg i
    if d.pair && k + 1 < 32 then [(true, k), (true, k + 1)] else [(true, k)]
  else [(false, d.reg)]

/-- The registers that the captured instruction at a position writes in an iteration. -/
def writesAt (r : Rep) (i p : Nat) : List (Bool × Nat) :=
  match r.cap[p]? with
  | some x => (x.instr.elim [] captureDests).flatMap (renamedRegs r i)
  | none => []

/-- A write at an iteration and position added to a footprint whose writes so far are earlier. -/
def addWrite (at_ : Nat × Nat) (fs : List Footprint) (w : Bool × Nat) : List Footprint :=
  if fs.any fun f => f.vector = w.1 && f.reg = w.2 then
    fs.map fun f => if f.vector = w.1 && f.reg = w.2 then { f with last := at_ } else f
  else fs ++ [⟨w.1, w.2, at_, at_⟩]

/-- The iterations that decide the footprint: a window of at most 32 registers comes round within 32 iterations, so the first 32
hold every first write and the last 32 every last one. -/
def decisiveIterations (count : Nat) : List Nat :=
  if count ≤ 64 then List.range count else List.range 32 ++ (List.range 32).map (count - 32 + ·)

/-- The write footprint of a sequence (R219). -/
def footprintOf (r : Rep) (count : Nat) : List Footprint :=
  (decisiveIterations count).foldl (fun fs i =>
    (List.range r.n).foldl (fun fs p => (writesAt r i p).foldl (addWrite (i, p)) fs) fs) []

/-! ### REPB, REPX, REPW -/

/-- REPB (R218). -/
def actRepb (o : RArgs) : Act Unit := do
  require (← ask fun c => decide (c.rep.state ≠ 2)) (.stall 0)
  change fun c => { c with rep := { c.rep with state := 1, cap := [], n := o.b.toNat + 1 } }
  retire
def execRepb (o : RArgs) (s : State) : Host.Outcome State Fault Refusal := finish (actRepb o) s

/-- The window word is one that R101 accepts. -/
def windowOk (w : Word) : Bool :=
  let base := (w.extractLsb' 0 5).toNat
  let size := (w.extractLsb' 5 6).toNat
  let stag := (w.extractLsb' 11 5).toNat
  size = 0 || (base + size ≤ 32 && stag < size)

/-- A sequence set up by its count and window word. -/
def Rep.load (r : Rep) (count : Nat) (w : Word) : Rep :=
  let r := { r with
    count := count
    iter := 0
    pos := 0
    base := (w.extractLsb' 0 5).toNat
    size := (w.extractLsb' 5 6).toNat
    stag := (w.extractLsb' 11 5).toNat }
  { r with footprint := footprintOf r count }

/-- A footprint register is full. -/
def Core.footFull (c : Core) (f : Footprint) : Bool := if f.vector then c.vIsFull f.reg else c.isFull f.reg

/-- The reason code of R428 of a wait on a footprint's registers. -/
def Core.footReason (c : Core) (fs : List Footprint) : BitVec 8 :=
  match fs.find? fun f => !c.footFull f with
  | some f => c.emptyReason f.vector f.reg
  | none => 0

/-- A footprint register marked empty. -/
def Core.footEmpty (c : Core) (f : Footprint) : Core :=
  if f.vector then { c with vfull := bitClear c.vfull f.reg } else c.emptyS f.reg

/-- A footprint register full. -/
def Core.footFill (c : Core) (f : Footprint) : Core :=
  if f.vector then { c with vfull := bitSet c.vfull f.reg } else { c with sfull := bitSet c.sfull f.reg }

/-- REPX (R219). The captured instructions stand before whatever follows it, so they keep the rounding mode of FCSR at REPX, and their
program position (R53, R220). -/
def actRepx (o : RArgs) : Act Unit := do
  let count ← readS o.a o.ta
  let w ← readS o.b o.tb
  let r ← ask (·.rep)
  require (r.state ≠ 0 && r.n ≤ r.cap.length && count.toNat ≤ 65535 && windowOk w) (.trap { cause := 0x01 })
  require (r.state ≠ 2) (.stall 0)
  let new := { r.load count.toNat w with fcsr := ← ask (·.fcsr), after := ← ask (·.next) }
  require (← ask fun c => new.footprint.all c.footFull) (.stall (← ask fun c => c.footReason new.footprint))
  change fun c =>
    new.footprint.foldl Core.footEmpty { c with rep := if count = 0 then new else { new with state := 2 } }
  retire
def execRepx (o : RArgs) (s : State) : Host.Outcome State Fault Refusal := finish (actRepx o) s

/-- REPW (R221). -/
def actRepw (_o : RArgs) : Act Unit := do
  require (← ask fun c => decide (c.rep.state ≠ 2 && c.rep.state ≠ 3)) (.stall 0)
  require (← ask fun c => c.rep.footprint.all c.footFull) (.stall (← ask fun c => c.footReason c.rep.footprint))
  retire
def execRepw (o : RArgs) (s : State) : Host.Outcome State Fault Refusal := finish (actRepw o) s

/-! ### Capturing (R218) -/

/-- The core captures: REPB's n instructions are not yet all in the buffer. -/
def Core.capturing (c : Core) : Bool := c.rep.state = 1 && c.rep.cap.length < c.rep.n

/-- An instruction joins the buffer, and PC passes it. -/
def capture (pfx : Option Pfx) (w : BitVec 32) (i : Option Instr) (bytes : Nat) (s : State) : State :=
  let c := s.core
  { s with core := { c with
    pc := c.pc + BitVec.ofNat 64 bytes
    rep := { c.rep with cap := c.rep.cap ++ [⟨c.pc, pfx, w, i⟩] } } }

/-- Any other instruction met during capture: it faults, and the capture is discarded. -/
def refuseCapture (s : State) : State :=
  takeFault { cause := 0x01 } { s with core := { s.core with rep := { s.core.rep with state := 0, cap := [] } } }

/-- A word is capturable as fetched, without a prefix: a 16-bit form, or majors 0x14 to 0x1F. -/
def capturableWord (w : BitVec 32) : Bool :=
  !w.getLsbD 0 || (0x14 ≤ (majorOf w).toNat && (majorOf w).toNat ≤ 0x1F)

/-- The pair whose prefix is in issue, captured: its second word is of majors 0x14 to 0x1E. A pair that may not be captured faults with
its second word, a misplaced prefix with its own (R88, log 21). -/
def capturePair (o : PArgs) (s : State) : State :=
  match fetchSecond s with
  | .error e => fetchStops e s
  | .ok (w, t) =>
    if mayFollow w && 0x14 ≤ (majorOf w).toNat && (majorOf w).toNat ≤ 0x1E then capture (some (Pfx.of o)) w (pairInstr o w) 8 t
    else refuseCapture (if mayFollow w then { t with core := { t.core with insn := w } } else t)

/-! ### The sequencer's issue (R65, R219, R222) -/

/-- An iteration has completed: the registers that it writes last fill. After the last one, the outbox entries of the instructions after
the sequence are as any other. -/
def Core.endIteration (c : Core) : Core :=
  let r := c.rep
  let c := (r.footprint.filter fun f => f.last.1 = r.iter).foldl Core.footFill c
  let c := { c with rep := { c.rep with iter := r.iter + 1, pos := 0 } }
  if r.iter + 1 < r.count then c
  else { c with rep := { c.rep with state := 1 }, outbox := c.outbox.map fun e => { e with late := false } }

/-- The captured instruction at the sequencer's place has completed, and the next place follows. -/
def Core.repAdvance (c : Core) : Core :=
  if c.rep.pos + 1 < c.rep.n then { c with rep := { c.rep with pos := c.rep.pos + 1 } } else c.endIteration

/-- The scalar pipeline's instruction put back after the sequencer has issued. -/
def restoreIssue (old : Core) (s : State) : State :=
  { s with core := { s.core with
    insn := old.insn
    pfx := old.pfx
    repAt := none
    committed := old.committed
    noAbort := old.noAbort } }

/-- The sequencer of the core whose turn it is issues a captured instruction. One that waits changes nothing yet. -/
def issueCaptured (x : Captured) (s : State) : State :=
  let old := s.core
  let s' := { s with core := { old with insn := x.insn, pfx := x.pfx, repAt := some (old.rep.iter, old.rep.pos) } }
  let m : Act Unit := match x.instr with
    | some i => actOf i
    | none => illegal
  match m s' with
  | .ok (_, t) => restoreIssue old { t with core := t.core.repAdvance }
  | .error (.stall _) => s
  | .error e => restoreIssue old (takeStop e s')

/-- REP_ITERATION (R219). A sequence goes on while its core sleeps, as an MMA does: R156 gates the vector and matrix units and lets the engines
go on. DESIGN CHOICE (log 43). -/
def actRepIteration (core : Nat) (s : State) : State :=
  onCore core (fun s =>
    if s.core.rep.state ≠ 2 then s
    else
      match s.core.rep.cap[s.core.rep.pos]? with
      | some x => issueCaptured x s
      | none => s) s
def execRepIteration (core : Nat) (s : State) : Host.Outcome State Fault Refusal := .next (actRepIteration core s)

end Sys2Proof.Machine
end

