-- ==== Sys2Proof/Machine/Sys.lean ====
section
/-!
DEFINITION. System instructions: control registers (CSRR, CSRW, CSRS, CSRC, R52, R153, R154), TRAP, BRK, HALT (R155), SLEEP (R156),
TMARK (R157).
-/

namespace Sys2Proof.Machine

/-! ### Control registers -/

/-- CSRR (R154). One of a register that the vector unit or the matrix engine writes reads it after a running sequence (R162, R220). MFL
is read, and written, as it stands, whatever MMAs the engine has still to complete. DESIGN CHOICE (log 44). -/
def actCsrr (o : SArgs) : Act Unit := do
  let x := o.x.toNat
  require (csrExists x && !csrWriteOnly x) (.trap { cause := 0x01 })
  awaitS o.d
  if csrOfUnits x then vectorIssue
  let v ← askS fun s => csrRead s s.cid x
  writeS o.d v
  retire
def execCsrr (o : SArgs) (s : State) : Host.Outcome State Fault Refusal := finish (actCsrr o) s

/-- A write to a control register (R154): every one but to FCSR is a commit point. -/
def writeCsr (o : SArgs) (f : Word → Word → Word) : Act Unit := do
  let x := o.x.toNat
  let v ← readS o.d 0
  if x ≠ 0x008 then commitPoint
  changeS fun s => csrWrite s.cid x (f (csrRead s s.cid x) (v &&& csrMask x)) s
  retireAs (x ≠ 0x008)

/-- CSRW (R154). -/
def actCsrw (o : SArgs) : Act Unit := do
  require (csrExists o.x.toNat && !csrReadOnly o.x.toNat) (.trap { cause := 0x01 })
  writeCsr o fun old v => (old &&& ~~~ csrMask o.x.toNat) ||| v
def execCsrw (o : SArgs) (s : State) : Host.Outcome State Fault Refusal := finish (actCsrw o) s

/-- A register that CSRS and CSRC may name: neither RO nor WO. -/
def csrReadWrite (x : Nat) : Bool := csrExists x && !csrReadOnly x && !csrWriteOnly x

/-- CSRS (R154). -/
def actCsrs (o : SArgs) : Act Unit := do
  require (csrReadWrite o.x.toNat) (.trap { cause := 0x01 })
  writeCsr o fun old v => old ||| v
def execCsrs (o : SArgs) (s : State) : Host.Outcome State Fault Refusal := finish (actCsrs o) s

/-- CSRC (R154). -/
def actCsrc (o : SArgs) : Act Unit := do
  require (csrReadWrite o.x.toNat) (.trap { cause := 0x01 })
  writeCsr o fun old v => old &&& ~~~ v
def execCsrc (o : SArgs) (s : State) : Host.Outcome State Fault Refusal := finish (actCsrc o) s

/-! ### TRAP, BRK, HALT (R155) -/

/-- An instruction that retires and then freezes its core: the packet's PC is the following instruction. -/
def retireAndFreeze (cause : BitVec 8) (det1 : BitVec 32) : Act Unit := fun s =>
  .ok ((), takeFault { cause := cause, det1 := det1 } { s with core := { s.core with pc := s.core.next } })

/-- TRAP. -/
def actTrap (o : SArgs) : Act Unit := retireAndFreeze 0x0B (o.x.setWidth 32)
def execTrap (o : SArgs) (s : State) : Host.Outcome State Fault Refusal := finish (actTrap o) s

/-- BRK. -/
def actBrk (_o : SArgs) : Act Unit := retireAndFreeze 0x0A 0
def execBrk (o : SArgs) (s : State) : Host.Outcome State Fault Refusal := finish (actBrk o) s

/-- HALT. -/
def actHalt (_o : SArgs) : Act Unit := retireAndFreeze 0x0B 0xFFFF_FFFF
def execHalt (o : SArgs) (s : State) : Host.Outcome State Fault Refusal := finish (actHalt o) s

/-! ### SLEEP and TMARK (R156, R157) -/

/-- SLEEP (R156). -/
def actSleep (o : SArgs) : Act Unit := do
  let t ← readS o.d 0
  if ← askS fun s => t.ule s.pkg.cyc || yieldAsked s s.cid then retire
  else change fun c => { c with phase := .wait (.sleep t) }
def execSleep (o : SArgs) (s : State) : Host.Outcome State Fault Refusal := finish (actSleep o) s

/-- TMARK (R157). -/
def actTmark (o : SArgs) : Act Unit := do
  let v ← readS o.d 0
  changeS fun s => traceExtended s.cid 0xF1 v (o.x.setWidth 64) s
  retire
def execTmark (o : SArgs) (s : State) : Host.Outcome State Fault Refusal := finish (actTmark o) s

end Sys2Proof.Machine
end

