-- ==== Sys2Proof/Machine/Task.lean ====
section
/-!
DEFINITION. The task instructions: FORK, SPAWN, DONE, YIELD, DEC (R340 to R345), SEND, SEND.A, HOLD, READY, CHBIND (R258 to R262).
-/

namespace Sys2Proof.Machine

/-! ### Records (R341) -/

/-- A task record from its 32 bytes. -/
def recordOf (bs : List Byte) : TaskRecord :=
  let at_ (k : Nat) : Word := BitVec.ofNat 64 (leValue ((bs.drop (8 * k)).take 8))
  ⟨at_ 0, at_ 1, at_ 2, at_ 3⟩

/-- The bytes of the record image at an address, and whether it lies in an uncached object (R341). -/
def readImage (a : Word) : Act (List Byte × Bool) := do
  aligned a 8
  readImageAt a 32

/-- The push of the record read at an address, as an outbox entry (R341). -/
def postPush (dst : Nat) (a : Word) (r : List Byte × Bool) : Act Unit := do
  commitRun a 32 r.2
  let k ← askS (·.cid)
  post (.push dst (recordOf r.1) (Carried.plain (if dst = k then 0 else 1)))
  retireAs r.2

/-- FORK (R341). -/
def actFork (o : RArgs) : Act Unit := do
  let a ← readS o.a o.ta
  let r ← readImage a
  postPush (← askS (·.cid)) a r
def execFork (o : RArgs) (s : State) : Host.Outcome State Fault Refusal := finish (actFork o) s

/-- A core that takes messages and pushes: it exists and is not fenced off (R259, R341). -/
def takesWork (s : State) (k : Nat) : Bool := decide (k < 0xC00) && !(s.coreAt k).fencedOff

/-- SPAWN (R341). -/
def actSpawn (o : RArgs) : Act Unit := do
  let a ← readS o.a o.ta
  let b ← readS o.b o.tb
  let r ← readImage a
  let dst := b.toNat % 2 ^ 12
  require (← askS fun s => takesWork s dst) (.trap { cause := 0x0F, addr := BitVec.ofNat 64 dst })
  postPush dst a r
def execSpawn (o : RArgs) (s : State) : Host.Outcome State Fault Refusal := finish (actSpawn o) s

/-! ### The end of an activation (R56, R342, R343) -/

/-- An activation ends: holds, message slot, monitor, boundary (R342). A hardware breakpoint at its last instruction freezes the core
with no activation (R433). -/
def endActivation (s : State) : State :=
  let msg := match s.core.act with
    | some a => a.msg
    | none => none
  let hit := breakHit s.core s.serving s.core.pc
  let s := { s with core := { s.core with pc := s.core.next, rpc := s.core.next } }
  match hit with
  | some n =>
    let t := takeFault (breakTrap n) s
    let u := reachBoundary (freeMessage? msg (endHolds t))
    { u with core := { u.core with phase := .frozen } }
  | none => reachBoundary (freeMessage? msg (endHolds s))

/-- DONE (R342): inside a caravan it first disbands it (R265). -/
def actDone (_o : RArgs) : Act Unit := do
  commitPoint
  if ← disband then
    if ← ask (·.allFull) then
      holdsRelease
      changeS endActivation
    else waitCommitted (← ask (·.fillReason))
def execDone (o : RArgs) (s : State) : Host.Outcome State Fault Refusal := finish (actDone o) s

/-- The core whose deque takes the continuation of a YIELD (R343, R355). -/
def yieldTo (s : State) (r : TaskRecord) : Nat :=
  let lat := match s.core.act with
    | some a => a.lat
    | none => false
  if s.core.vacReq then moveTo s s.cid 0 r
  else if memberOf s.cid < 13 || lat then s.cid
  else homeCore s s.cid

/-- YIELD (R343): its image is read once, at issue, and kept while it waits. Its continuation is pushed at retirement, ahead of pushes that wait
in the outbox. DEDUCED (log 43). -/
def actYield (o : RArgs) : Act Unit := do
  outsideCaravan
  if (← ask (·.image)).isEmpty then
    let a ← readS o.a o.ta
    let r ← readImage a
    orderCommit a 32
    change fun c => { c with image := r.1 }
  commitPoint
  if !(← ask (·.allFull)) then waitCommitted (← ask (·.fillReason))
  else
    let r ← ask fun c => recordOf c.image
    let dst ← askS fun s => yieldTo s r
    if ← askS fun s => !dequeTakes s dst then waitCommitted 0x45
    else
      holdsRelease
      changeS (pushBottom dst r (Carried.plain 5))
      changeS endActivation
def execYield (o : RArgs) (s : State) : Host.Outcome State Fault Refusal := finish (actYield o) s

/-! ### DEC (R345) -/

/-- The fields of a counter word. -/
def counterOffset (w : Word) : Nat := (w.extractLsb' 0 20).toNat
def counterHome (w : Word) : Nat := (w.extractLsb' 32 12).toNat
def counterZero (w : Word) : Bool := w.extractLsb' 20 12 = 0#12 && w.extractLsb' 44 20 = 0#20

/-- DEC (R345). -/
def actDec (o : RArgs) : Act Unit := do
  let a ← readS o.a o.ta
  let n ← if o.b = 0 then pure 1 else readS o.b o.tb
  require (counterOffset a % 64 = 0) (.trap (trapAt 0x03 a))
  require (counterZero a && decide (counterHome a < 0xC00) && decide (0 < n.toInt)) (.trap (trapAt 0x04 a))
  require (counterOffset a < 0xD8000) (.trap (trapAt 0x05 a))
  require (← askS fun s => takesWork s (counterHome a)) (.trap (trapAt 0x0F a))
  let p ← askS fun s => scratch s (counterHome a) (counterOffset a)
  post (.dec a p n)
  retire
def execDec (o : RArgs) (s : State) : Host.Outcome State Fault Refusal := finish (actDec o) s

/-! ### Messages (R259 to R261) -/

/-- The trap of a destination that takes no message: ADDR holds bits 17:0 of the message word. -/
def noDestination (w : Word) : Stop := .trap { cause := 0x0F, addr := BitVec.ofNat 64 (w.toNat % 2 ^ 18) }

/-- Steps 1 to 3 of R259: the message bytes, and whether they lie in an uncached object. -/
def readMessage (a w : Word) (host : Bool) : Act (List Byte × Bool) := do
  require (1 ≤ mwLen w && mwLen w ≤ 64) (.trap (trapAt 0x04 a))
  require ((mwDst w = 0xFFF && host) || (← askS fun s => takesWork s (mwDst w))) (noDestination w)
  readPieces a (mwLen w)

/-- SEND (R259, R260). -/
def actSend (o : RArgs) : Act Unit := do
  let a ← readS o.a o.ta
  let w ← readS o.b o.tb
  let r ← readMessage a w true
  commitRun a (mwLen w) r.2
  post (.msg (mwDst w) (mwCh w) r.1)
  retireAs r.2
def execSend (o : RArgs) (s : State) : Host.Outcome State Fault Refusal := finish (actSend o) s

/-- SEND_A (R259, R260): the release comes before the entry. -/
def actSendA (o : RArgs) : Act Unit := do
  let a ← readS o.a o.ta
  let w ← readS o.b o.tb
  let k ← readS o.d 0
  let r ← readMessage a w false
  let x ← releaseChecks k
  homeAnswers x.1 x.2
  orderCommit a (mwLen w)
  commitPoint
  releaseHold x.1 x.2
  post (.msgAcq (mwDst w) (mwCh w) r.1 k) true
  retireCommit
def execSendA (o : RArgs) (s : State) : Host.Outcome State Fault Refusal := finish (actSendA o) s

/-- The bit that HOLD or READY sets, as an outbox entry (R261). -/
def postBit (make : Nat → Nat → Bool → Cargo) (o : RArgs) : Act Unit := do
  let w ← readS o.a o.ta
  let v ← readS o.b o.tb
  require (← askS fun s => takesWork s (mwDst w)) (noDestination w)
  post (make (mwDst w) (mwCh w) (v.getLsbD 0))
  retire

/-- HOLD (R261). -/
def actHold (o : RArgs) : Act Unit := postBit .hold o
def execHold (o : RArgs) (s : State) : Host.Outcome State Fault Refusal := finish (actHold o) s

/-- READY (R261). -/
def actReady (o : RArgs) : Act Unit := postBit .ready o
def execReady (o : RArgs) (s : State) : Host.Outcome State Fault Refusal := finish (actReady o) s

/-! ### CHBIND (R262) -/

/-- A channel entry's second doubleword after a CHBIND: V, LAT, HOLD, READY, DEPTH and AOA from the image. -/
def boundWord (old image : Word) : Word := (old &&& ~~~ 0x7F#64) ||| (image &&& 0x7F#64)

/-- A supervisor's channel 63, once valid, stays valid, latency class and four deep. -/
def spoilsChannel63 (s : State) (ch : Nat) (image : Word) : Bool :=
  memberOf s.cid = 15 && ch = 63 && chV (chWord s s.cid 63) && !(chV image && chLat image && chDepth image = 3)

/-- A channel's table entry written. -/
def bindChannel (ch : Nat) (epc image : Word) (s : State) : State :=
  let s := physPutNat s (chAddr s s.cid ch) 8 (epc &&& ~~~ 1#64).toNat
  channelReady s s.cid ch (setChWord s s.cid ch (boundWord (chWord s s.cid ch) image))

/-- CHBIND (R262). -/
def actChbind (o : RArgs) : Act Unit := do
  let a ← readS o.a o.ta
  let b ← readS o.b o.tb
  aligned a 16
  let r ← readImageAt a 16
  let ch := b.toNat % 64
  let epc : Word := BitVec.ofNat 64 (leValue (r.1.take 8))
  let image : Word := BitVec.ofNat 64 (leValue (r.1.drop 8))
  require (!(← askS fun s => spoilsChannel63 s ch image)) (.trap (trapAt 0x05 a))
  commitRun a 16 r.2
  changeS (bindChannel ch epc image)
  retireAs r.2
def execChbind (o : RArgs) (s : State) : Host.Outcome State Fault Refusal := finish (actChbind o) s

end Sys2Proof.Machine
end

