-- ==== Sys2Proof/Machine/Upd.lean ====
section
/-!
DEFINITION. The update instructions: the package skip flag (SKIPSET, SKIPCLR, R401, R407) and the optimizer (OPTA, OPTW, R399, R400,
R402 to R406).
-/

namespace Sys2Proof.Machine

/-! ### The skip flag (R401, R407) -/

/-- SKIPSET (R407). -/
def actSkipset (o : RArgs) : Act Unit := do
  let a ← readS o.a o.ta
  commitPoint
  changeS (setSkip (a.setWidth 32) true)
  retireCommit
def execSkipset (o : RArgs) (s : State) : Host.Outcome State Fault Refusal := finish (actSkipset o) s

/-- SKIPCLR (R407): a late clear of an old step changes nothing. -/
def actSkipclr (o : RArgs) : Act Unit := do
  let a ← readS o.a o.ta
  commitPoint
  changeS fun s => if s.pkg.skipStep = a.setWidth 32 then setSkip s.pkg.skipStep false s else s
  retireCommit
def execSkipclr (o : RArgs) (s : State) : Host.Outcome State Fault Refusal := finish (actSkipclr o) s

/-! ### The group descriptor and its ranges (R399, R404) -/

/-- An optimizer group descriptor. -/
structure OptGroup where
  p : Word
  g : Word
  m : Word
  v : Word
  ms : Word
  st : Word
  deriving DecidableEq, Repr

/-- An uncorrectable error on an input faults with cause 0x0C (R404). -/
def eccFaults {α : Type} (m : Act α) : Act α := fun s =>
  match m s with
  | .error (.ecc _ a _) => .error (.trap (trapAt 0x0C a))
  | r => r

/-- A range lies in object memory or local spaces 1 to 4 (R399). -/
def inOptSpace (a : Word) : Act Unit :=
  require (!(a.getLsbD 63 && (spaceOf a = 5 || spaceOf a = 6))) (.trap (trapAt 0x05 a))

/-- The check of one range, piece by piece, which takes no turn behind posted atomics yet (R404). Step 5 of R141: of a range read no
piece may hold an uncorrectable error, of one written none that its bytes, and the tag bytes named, would rewrite in part. -/
def checkRange (a : Word) (n : Nat) (m : Mode) (need : Need) (tagMask : BitVec 5 := 0) : Act Unit := do
  inOptSpace a
  each (fun (p : Word × Nat) => do
    let t ← target p.1 p.2 m need 0 false
    if m = .load then eccFaults (readableAt t p.2) else takesStore t (byteMask (p.1.toNat % 64) p.2) tagMask) (pieces a n)
def checkRead (a : Word) (n : Nat) : Act Unit := checkRange a n .load .read
def checkUpdate (a : Word) (n : Nat) (tagMask : BitVec 5 := 0) : Act Unit := checkRange a n .store .update tagMask

/-- The check of a range that the descriptor names and the instruction neither reads nor writes: it needs no permission (R404). -/
def checkNamed (a : Word) (n : Nat) : Act Unit := do
  inOptSpace a
  each (fun p => do
    let _ ← target p.1 p.2 .load .named 0 false
    pure ()) (pieces a n)

/-- A descriptor from its 64 bytes. -/
def groupOf (bs : List Byte) : OptGroup :=
  let at_ (k : Nat) : Word := BitVec.ofNat 64 (leValue ((bs.drop (8 * k)).take 8))
  ⟨at_ 0, at_ 1, at_ 2, at_ 3, at_ 4, at_ 5⟩

/-- The descriptor read, its own address and the addresses in it aligned (R404 step 1); it is kept until the instruction retires. -/
def readGroup (a : Word) : Act OptGroup := do
  aligned a 64
  inOptSpace a
  let r ← eccFaults (readImageAt a 64)
  let d := groupOf r.1
  each (fun x => aligned x 64) [d.p, d.g, d.m, d.v, d.ms, d.st]
  orderCommit a 64
  change fun c => { c with image := r.1 }
  pure d

/-- An update instruction (R404): its checks, once; its commit; and then, behind the core's own posted atomics, what it reads of its
inputs and what it does with them. -/
def optInsn (a : Word) (checks : OptGroup → Act Unit) (inputs : OptGroup → List (Word × Nat)) (effect : OptGroup → Act Unit) :
    Act Unit := do
  if (← ask (·.image)).isEmpty then checks (← readGroup a)
  commitPoint
  let d ← ask fun c => groupOf c.image
  orWait do
    each (fun (x : Word × Nat) => orderRun x.1 x.2) (inputs d)
    effect d
    retireCommit

/-- Values of w bytes read from a range through L1. -/
def readValues (w : Nat) (a : Word) (n : Nat) : Act (List Nat) := do
  let r ← eccFaults (readPieces a (w * n))
  pure ((List.range n).map fun k => leValue ((r.1.drop (w * k)).take w))

/-- A line just written is committed dirty (R404). -/
def settleCommitted : Act Unit := change fun c => { c with lines := c.lines.map fun l => { l with unc := false } }

/-- Bytes written to one block after the commit, with tag bytes where the mask names them. -/
def writeCommitted (a : Word) (bs : List Byte) (tag : Tag) (tagMask : BitVec 5) : Act Unit := do
  let t ← target a bs.length .store .update
  writeBlock t (placed (a.toNat % 64) bs) (byteMask (a.toNat % 64) bs.length) tag tagMask
  settleCommitted

/-- Bytes written to a run of blocks after the commit. -/
def writeRange (a : Word) (bs : List Byte) (tag : Tag) (tagMask : BitVec 5) : Act Unit :=
  each (fun k => writeCommitted (nthBlock a k) ((bs.drop (64 * k)).take 64) tag tagMask) (List.range ((bs.length + 63) / 64))

/-- F32 patterns as bytes. -/
def f32Bytes (xs : List Nat) : List Byte := xs.flatMap (leBytes 4)

/-! ### OPTA (R405) -/

/-- The hyperparameters. -/
structure Hyper where
  lr : Nat
  b1 : Nat
  b2 : Nat
  ob1 : Nat
  eps : Nat
  wd : Nat
  c1 : Nat
  c2 : Nat
  ob2 : Nat
  deriving DecidableEq, Repr

/-- The hyperparameter block's words (R400). -/
def hyperOf (ws : List Nat) : Hyper :=
  let at_ (off : Nat) : Nat := ws.getD (off / 4) 0
  { lr := at_ 0x08, b1 := at_ 0x0C, b2 := at_ 0x10, ob1 := at_ 0x14, eps := at_ 0x18, wd := at_ 0x1C, c1 := at_ 0x20, c2 := at_ 0x24,
    ob2 := at_ 0x28 }

/-- F32 operations that round to nearest even, without flags (R405). -/
def f32Mul (a b : Nat) : Nat := (fmtF32.mul .rne a b).1
def f32Add (a b : Nat) : Nat := (fmtF32.add .rne a b).1
def f32Div (a b : Nat) : Nat := (fmtF32.div .rne a b).1
def f32Fma (a b d : Nat) : Nat := (fmtF32.fma .rne false false a b d).1

/-- One element of OPTA: the new parameter, m and v. -/
def optElement (c : Core) (h : Hyper) (am av p g mc vc : Nat) : Nat × Nat × Nat :=
  let mo := f32Mul (tableEntry c false mc) am
  let vo := f32Mul (tableEntry c false vc) av
  let m := f32Fma h.b1 mo (f32Mul h.ob1 g)
  let v := f32Fma h.b2 vo (f32Mul h.ob2 (f32Mul g g))
  let u := f32Div (f32Mul m h.c1) (f32Add (fmtF32.sqrt .rne (f32Mul v h.c2)).1 h.eps)
  ((fmtF32.fma .rne true false h.lr (f32Fma h.wd p u) p).1, m, v)

/-- The largest magnitude; any NaN makes it the default NaN (R405). -/
def optMax (xs : List Nat) : Nat :=
  if xs.any fun x => (fmtF32.read x).isNan then fmtF32.nanBits else (xs.map (· % 2 ^ 31)).foldl max 0

/-- What OPTA reads and writes (R405). -/
def optaEffect (hp : Word) (step : BitVec 32) (d : OptGroup) : Act Unit := do
  let h := hyperOf (← readValues 4 hp 16)
  let ps ← readValues 4 d.p 2048
  let gs ← readValues 4 d.g 2048
  let ms ← readValues 1 d.m 2048
  let vs ← readValues 1 d.v 2048
  let as ← readValues 4 d.ms 2
  if !(← askS fun s => skips s step) then
    let c ← ask id
    let rs := (List.range 2048).map fun i =>
      optElement c h (as.getD 0 0) (as.getD 1 0) (ps.getD i 0) (gs.getD i 0) (ms.getD i 0) (vs.getD i 0)
    writeRange d.p (f32Bytes (rs.map (·.1))) 0 0
    writeRange d.st (f32Bytes (rs.map (·.2.1) ++ rs.map (·.2.2) ++ [optMax (rs.map (·.2.1)), optMax (rs.map (·.2.2))])) 0 0

/-- OPTA (R402 to R405). The ranges are checked in the order P, to read and to update, G, M, V, MS, S. DESIGN CHOICE (log 41). -/
def actOpta (o : RArgs) : Act Unit := do
  let a ← readS o.a o.ta
  let step ← readS o.b o.tb
  let hp ← ask (·.optH)
  optInsn a
    (fun d => do
      checkRead d.p 8192
      checkUpdate d.p 8192
      checkRead d.g 8192
      checkRead d.m 2048
      checkRead d.v 2048
      checkRead d.ms 8
      checkUpdate d.st 16448
      aligned hp 8
      checkRead hp 64)
    (fun d => [(hp, 64), (d.p, 8192), (d.g, 8192), (d.m, 2048), (d.v, 2048), (d.ms, 8)])
    (optaEffect hp (step.setWidth 32))
def execOpta (o : RArgs) (s : State) : Host.Outcome State Fault Refusal := finish (actOpta o) s

/-! ### OPTW (R406) -/

/-- The code of a staged moment under its maximum. -/
def optCode (table : List Nat) (a x : Nat) : Byte :=
  match fmtF32.read a with
  | .nan _ | .inf _ => 0
  | .fin _ m _ => BitVec.ofNat 8 (encodeCode table (if m = 0 then 0 else f32Div x a)).1

/-- The tag of a block of C8 codes (R22, R406). -/
def codeTag : Tag := 0x7F_7F7F_7F0E

/-- What OPTW reads and writes (R406). -/
def optwEffect (step : BitVec 32) (d : OptGroup) : Act Unit := do
  let ms ← readValues 4 d.st 2048
  let vs ← readValues 4 (d.st + 8192) 2048
  let as ← readValues 4 (d.st + 16384) 2
  if !(← askS fun s => skips s step) then
    let table ← ask fun c => c.c8.toList.map (·.toNat)
    writeRange d.m (ms.map (optCode table (as.getD 0 0))) codeTag (BitVec.allOnes 5)
    writeRange d.v (vs.map (optCode table (as.getD 1 0))) codeTag (BitVec.allOnes 5)
    writeRange d.ms (f32Bytes as) 0 0

/-- OPTW (R402 to R404, R406). The ranges are checked in the order P, G, M, V, MS, S. DESIGN CHOICE (log 41). -/
def actOptw (o : RArgs) : Act Unit := do
  let a ← readS o.a o.ta
  let step ← readS o.b o.tb
  optInsn a
    (fun d => do
      checkNamed d.p 8192
      checkNamed d.g 8192
      checkUpdate d.m 2048 (BitVec.allOnes 5)
      checkUpdate d.v 2048 (BitVec.allOnes 5)
      checkUpdate d.ms 8
      checkRead d.st 16448)
    (fun d => [(d.st, 16448)])
    (optwEffect (step.setWidth 32))
def execOptw (o : RArgs) (s : State) : Host.Outcome State Fault Refusal := finish (actOptw o) s

end Sys2Proof.Machine
end

