-- ==== Sys2Proof/Machine/Dispatch.lean ====
section
/-!
DEFINITION. The dispatch: one arm per constructor of Instr, each one direct call of its meaning.
-/

namespace Sys2Proof.Machine

/-- The meaning of an instruction, or of one step of another agent, at a state. -/
def exec (i : Instr) (s : State) : Host.Outcome State Fault Refusal :=
  match i with
  | .add o => Sys2Proof.Machine.execAdd o s
  | .sub o => Sys2Proof.Machine.execSub o s
  | .and o => Sys2Proof.Machine.execAnd o s
  | .or o => Sys2Proof.Machine.execOr o s
  | .xor o => Sys2Proof.Machine.execXor o s
  | .sll o => Sys2Proof.Machine.execSll o s
  | .srl o => Sys2Proof.Machine.execSrl o s
  | .sra o => Sys2Proof.Machine.execSra o s
  | .rol o => Sys2Proof.Machine.execRol o s
  | .slt o => Sys2Proof.Machine.execSlt o s
  | .sltu o => Sys2Proof.Machine.execSltu o s
  | .min o => Sys2Proof.Machine.execMin o s
  | .max o => Sys2Proof.Machine.execMax o s
  | .minu o => Sys2Proof.Machine.execMinu o s
  | .maxu o => Sys2Proof.Machine.execMaxu o s
  | .cmov o => Sys2Proof.Machine.execCmov o s
  | .mul o => Sys2Proof.Machine.execMul o s
  | .mulh o => Sys2Proof.Machine.execMulh o s
  | .mulhu o => Sys2Proof.Machine.execMulhu o s
  | .div o => Sys2Proof.Machine.execDiv o s
  | .divu o => Sys2Proof.Machine.execDivu o s
  | .rem o => Sys2Proof.Machine.execRem o s
  | .remu o => Sys2Proof.Machine.execRemu o s
  | .clz o => Sys2Proof.Machine.execClz o s
  | .ctz o => Sys2Proof.Machine.execCtz o s
  | .popc o => Sys2Proof.Machine.execPopc o s
  | .omk o => Sys2Proof.Machine.execOmk o s
  | .oid o => Sys2Proof.Machine.execOid o s
  | .ooff o => Sys2Proof.Machine.execOoff o s
  | .lspc o => Sys2Proof.Machine.execLspc o s
  | .addi o => Sys2Proof.Machine.execAddi o s
  | .andi o => Sys2Proof.Machine.execAndi o s
  | .ori o => Sys2Proof.Machine.execOri o s
  | .xori o => Sys2Proof.Machine.execXori o s
  | .slti o => Sys2Proof.Machine.execSlti o s
  | .sltiu o => Sys2Proof.Machine.execSltiu o s
  | .slli o => Sys2Proof.Machine.execSlli o s
  | .srli o => Sys2Proof.Machine.execSrli o s
  | .srai o => Sys2Proof.Machine.execSrai o s
  | .roli o => Sys2Proof.Machine.execRoli o s
  | .lui o => Sys2Proof.Machine.execLui o s
  | .auipc o => Sys2Proof.Machine.execAuipc o s
  | .beq o => Sys2Proof.Machine.execBeq o s
  | .bne o => Sys2Proof.Machine.execBne o s
  | .blt o => Sys2Proof.Machine.execBlt o s
  | .bge o => Sys2Proof.Machine.execBge o s
  | .bltu o => Sys2Proof.Machine.execBltu o s
  | .bgeu o => Sys2Proof.Machine.execBgeu o s
  | .jal o => Sys2Proof.Machine.execJal o s
  | .jalr o => Sys2Proof.Machine.execJalr o s
  | .ld o => Sys2Proof.Machine.execLd o s
  | .prefetch o => Sys2Proof.Machine.execPrefetch o s
  | .st o => Sys2Proof.Machine.execSt o s
  | .stUpd o => Sys2Proof.Machine.execStUpd o s
  | .amoAdd o => Sys2Proof.Machine.execAmoAdd o s
  | .amoAnd o => Sys2Proof.Machine.execAmoAnd o s
  | .amoOr o => Sys2Proof.Machine.execAmoOr o s
  | .amoXor o => Sys2Proof.Machine.execAmoXor o s
  | .amoMin o => Sys2Proof.Machine.execAmoMin o s
  | .amoMax o => Sys2Proof.Machine.execAmoMax o s
  | .amoMinu o => Sys2Proof.Machine.execAmoMinu o s
  | .amoMaxu o => Sys2Proof.Machine.execAmoMaxu o s
  | .amoSwap o => Sys2Proof.Machine.execAmoSwap o s
  | .amoCas o => Sys2Proof.Machine.execAmoCas o s
  | .amoAddP o => Sys2Proof.Machine.execAmoAddP o s
  | .amoAndP o => Sys2Proof.Machine.execAmoAndP o s
  | .amoOrP o => Sys2Proof.Machine.execAmoOrP o s
  | .amoXorP o => Sys2Proof.Machine.execAmoXorP o s
  | .amoMinP o => Sys2Proof.Machine.execAmoMinP o s
  | .amoMaxP o => Sys2Proof.Machine.execAmoMaxP o s
  | .amoMinuP o => Sys2Proof.Machine.execAmoMinuP o s
  | .amoMaxuP o => Sys2Proof.Machine.execAmoMaxuP o s
  | .amoSwapP o => Sys2Proof.Machine.execAmoSwapP o s
  | .acqX o => Sys2Proof.Machine.execAcqX o s
  | .acqS o => Sys2Proof.Machine.execAcqS o s
  | .tryacqX o => Sys2Proof.Machine.execTryacqX o s
  | .rel o => Sys2Proof.Machine.execRel o s
  | .bind o => Sys2Proof.Machine.execBind o s
  | .unbind o => Sys2Proof.Machine.execUnbind o s
  | .fenceG o => Sys2Proof.Machine.execFenceG o s
  | .fenceL o => Sys2Proof.Machine.execFenceL o s
  | .commit o => Sys2Proof.Machine.execCommit o s
  | .mon o => Sys2Proof.Machine.execMon o s
  | .mwait o => Sys2Proof.Machine.execMwait o s
  | .waitt o => Sys2Proof.Machine.execWaitt o s
  | .fork o => Sys2Proof.Machine.execFork o s
  | .spawn o => Sys2Proof.Machine.execSpawn o s
  | .done o => Sys2Proof.Machine.execDone o s
  | .yield o => Sys2Proof.Machine.execYield o s
  | .dec o => Sys2Proof.Machine.execDec o s
  | .send o => Sys2Proof.Machine.execSend o s
  | .sendA o => Sys2Proof.Machine.execSendA o s
  | .hold o => Sys2Proof.Machine.execHold o s
  | .ready o => Sys2Proof.Machine.execReady o s
  | .chbind o => Sys2Proof.Machine.execChbind o s
  | .gang o => Sys2Proof.Machine.execGang o s
  | .disband o => Sys2Proof.Machine.execDisband o s
  | .crest o => Sys2Proof.Machine.execCrest o s
  | .bar o => Sys2Proof.Machine.execBar o s
  | .csrr o => Sys2Proof.Machine.execCsrr o s
  | .csrw o => Sys2Proof.Machine.execCsrw o s
  | .csrs o => Sys2Proof.Machine.execCsrs o s
  | .csrc o => Sys2Proof.Machine.execCsrc o s
  | .trap o => Sys2Proof.Machine.execTrap o s
  | .brk o => Sys2Proof.Machine.execBrk o s
  | .halt o => Sys2Proof.Machine.execHalt o s
  | .sleep o => Sys2Proof.Machine.execSleep o s
  | .tmark o => Sys2Proof.Machine.execTmark o s
  | .fadd o => Sys2Proof.Machine.execFadd o s
  | .fsub o => Sys2Proof.Machine.execFsub o s
  | .fmul o => Sys2Proof.Machine.execFmul o s
  | .ffma o => Sys2Proof.Machine.execFfma o s
  | .ffms o => Sys2Proof.Machine.execFfms o s
  | .fnma o => Sys2Proof.Machine.execFnma o s
  | .fdiv o => Sys2Proof.Machine.execFdiv o s
  | .fsqrt o => Sys2Proof.Machine.execFsqrt o s
  | .fmin o => Sys2Proof.Machine.execFmin o s
  | .fmax o => Sys2Proof.Machine.execFmax o s
  | .fabs o => Sys2Proof.Machine.execFabs o s
  | .fneg o => Sys2Proof.Machine.execFneg o s
  | .fcpys o => Sys2Proof.Machine.execFcpys o s
  | .frnd o => Sys2Proof.Machine.execFrnd o s
  | .iadd o => Sys2Proof.Machine.execIadd o s
  | .isub o => Sys2Proof.Machine.execIsub o s
  | .imul o => Sys2Proof.Machine.execImul o s
  | .imulh o => Sys2Proof.Machine.execImulh o s
  | .imulhu o => Sys2Proof.Machine.execImulhu o s
  | .iand o => Sys2Proof.Machine.execIand o s
  | .ior o => Sys2Proof.Machine.execIor o s
  | .ixor o => Sys2Proof.Machine.execIxor o s
  | .ishl o => Sys2Proof.Machine.execIshl o s
  | .ishr o => Sys2Proof.Machine.execIshr o s
  | .isar o => Sys2Proof.Machine.execIsar o s
  | .imin o => Sys2Proof.Machine.execImin o s
  | .imax o => Sys2Proof.Machine.execImax o s
  | .iabs o => Sys2Proof.Machine.execIabs o s
  | .iadds o => Sys2Proof.Machine.execIadds o s
  | .isubs o => Sys2Proof.Machine.execIsubs o s
  | .ipopc o => Sys2Proof.Machine.execIpopc o s
  | .iclz o => Sys2Proof.Machine.execIclz o s
  | .iminu o => Sys2Proof.Machine.execIminu o s
  | .imaxu o => Sys2Proof.Machine.execImaxu o s
  | .fceq o => Sys2Proof.Machine.execFceq o s
  | .fclt o => Sys2Proof.Machine.execFclt o s
  | .fcle o => Sys2Proof.Machine.execFcle o s
  | .fcun o => Sys2Proof.Machine.execFcun o s
  | .fcne o => Sys2Proof.Machine.execFcne o s
  | .iceq o => Sys2Proof.Machine.execIceq o s
  | .iclt o => Sys2Proof.Machine.execIclt o s
  | .icltu o => Sys2Proof.Machine.execIcltu o s
  | .icne o => Sys2Proof.Machine.execIcne o s
  | .fclass o => Sys2Proof.Machine.execFclass o s
  | .mand o => Sys2Proof.Machine.execMand o s
  | .mor o => Sys2Proof.Machine.execMor o s
  | .mxor o => Sys2Proof.Machine.execMxor o s
  | .mandn o => Sys2Proof.Machine.execMandn o s
  | .mnot o => Sys2Proof.Machine.execMnot o s
  | .cvt o => Sys2Proof.Machine.execCvt o s
  | .cvts o => Sys2Proof.Machine.execCvts o s
  | .frcp o => Sys2Proof.Machine.execFrcp o s
  | .frsq o => Sys2Proof.Machine.execFrsq o s
  | .fex2 o => Sys2Proof.Machine.execFex2 o s
  | .flg2 o => Sys2Proof.Machine.execFlg2 o s
  | .fsin o => Sys2Proof.Machine.execFsin o s
  | .fcos o => Sys2Proof.Machine.execFcos o s
  | .ftanh o => Sys2Proof.Machine.execFtanh o s
  | .rsum o => Sys2Proof.Machine.execRsum o s
  | .rmax o => Sys2Proof.Machine.execRmax o s
  | .rmin o => Sys2Proof.Machine.execRmin o s
  | .ramax o => Sys2Proof.Machine.execRamax o s
  | .argmax o => Sys2Proof.Machine.execArgmax o s
  | .scan o => Sys2Proof.Machine.execScan o s
  | .voteAny o => Sys2Proof.Machine.execVoteAny o s
  | .voteAll o => Sys2Proof.Machine.execVoteAll o s
  | .voteNone o => Sys2Proof.Machine.execVoteNone o s
  | .popm o => Sys2Proof.Machine.execPopm o s
  | .bcast o => Sys2Proof.Machine.execBcast o s
  | .xtr o => Sys2Proof.Machine.execXtr o s
  | .ins o => Sys2Proof.Machine.execIns o s
  | .perm o => Sys2Proof.Machine.execPerm o s
  | .slide o => Sys2Proof.Machine.execSlide o s
  | .iota o => Sys2Proof.Machine.execIota o s
  | .vld o => Sys2Proof.Machine.execVld o s
  | .vlds o => Sys2Proof.Machine.execVlds o s
  | .vst o => Sys2Proof.Machine.execVst o s
  | .vsts o => Sys2Proof.Machine.execVsts o s
  | .vgath o => Sys2Proof.Machine.execVgath o s
  | .vscat o => Sys2Proof.Machine.execVscat o s
  | .vldt o => Sys2Proof.Machine.execVldt o s
  | .vldl o => Sys2Proof.Machine.execVldl o s
  | .vstl o => Sys2Proof.Machine.execVstl o s
  | .vtag o => Sys2Proof.Machine.execVtag o s
  | .vstag o => Sys2Proof.Machine.execVstag o s
  | .qnt o => Sys2Proof.Machine.execQnt o s
  | .dqnt o => Sys2Proof.Machine.execDqnt o s
  | .unpk o => Sys2Proof.Machine.execUnpk o s
  | .unpkT o => Sys2Proof.Machine.execUnpkT o s
  | .pack o => Sys2Proof.Machine.execPack o s
  | .ctab o => Sys2Proof.Machine.execCtab o s
  | .ctenc o => Sys2Proof.Machine.execCtenc o s
  | .rng o => Sys2Proof.Machine.execRng o s
  | .ctld o => Sys2Proof.Machine.execCtld o s
  | .mma o => Sys2Proof.Machine.execMma o s
  | .mz o => Sys2Proof.Machine.execMz o s
  | .mld o => Sys2Proof.Machine.execMld o s
  | .mst o => Sys2Proof.Machine.execMst o s
  | .mrd o => Sys2Proof.Machine.execMrd o s
  | .mwr o => Sys2Proof.Machine.execMwr o s
  | .mcfgMode o => Sys2Proof.Machine.execMcfgMode o s
  | .mcfgScale o => Sys2Proof.Machine.execMcfgScale o s
  | .cpy o => Sys2Proof.Machine.execCpy o s
  | .cpya o => Sys2Proof.Machine.execCpya o s
  | .cpyg o => Sys2Proof.Machine.execCpyg o s
  | .qfence o => Sys2Proof.Machine.execQfence o s
  | .cstat o => Sys2Proof.Machine.execCstat o s
  | .repb o => Sys2Proof.Machine.execRepb o s
  | .repx o => Sys2Proof.Machine.execRepx o s
  | .repw o => Sys2Proof.Machine.execRepw o s
  | .tseq o => Sys2Proof.Machine.execTseq o s
  | .tseqFree o => Sys2Proof.Machine.execTseqFree o s
  | .wset o => Sys2Proof.Machine.execWset o s
  | .tcommit o => Sys2Proof.Machine.execTcommit o s
  | .tdraft o => Sys2Proof.Machine.execTdraft o s
  | .tconf o => Sys2Proof.Machine.execTconf o s
  | .tread o => Sys2Proof.Machine.execTread o s
  | .wclr o => Sys2Proof.Machine.execWclr o s
  | .exroute o => Sys2Proof.Machine.execExroute o s
  | .exspawn o => Sys2Proof.Machine.execExspawn o s
  | .exact o => Sys2Proof.Machine.execExact o s
  | .exretire o => Sys2Proof.Machine.execExretire o s
  | .exjoin o => Sys2Proof.Machine.execExjoin o s
  | .exjoinF o => Sys2Proof.Machine.execExjoinF o s
  | .exstat o => Sys2Proof.Machine.execExstat o s
  | .expub o => Sys2Proof.Machine.execExpub o s
  | .opta o => Sys2Proof.Machine.execOpta o s
  | .optw o => Sys2Proof.Machine.execOptw o s
  | .skipset o => Sys2Proof.Machine.execSkipset o s
  | .skipclr o => Sys2Proof.Machine.execSkipclr o s
  | .pfx o => Sys2Proof.Machine.execPfx o s
  | .hint o => Sys2Proof.Machine.execHint o s
  | .vmov16 o => Sys2Proof.Machine.execVmov16 o s
  | .fadd16 o => Sys2Proof.Machine.execFadd16 o s
  | .fsub16 o => Sys2Proof.Machine.execFsub16 o s
  | .fmul16 o => Sys2Proof.Machine.execFmul16 o s
  | .fmax16 o => Sys2Proof.Machine.execFmax16 o s
  | .fmin16 o => Sys2Proof.Machine.execFmin16 o s
  | .fabs16 o => Sys2Proof.Machine.execFabs16 o s
  | .fneg16 o => Sys2Proof.Machine.execFneg16 o s
  | .iadd16 o => Sys2Proof.Machine.execIadd16 o s
  | .isub16 o => Sys2Proof.Machine.execIsub16 o s
  | .iand16 o => Sys2Proof.Machine.execIand16 o s
  | .ior16 o => Sys2Proof.Machine.execIor16 o s
  | .ixor16 o => Sys2Proof.Machine.execIxor16 o s
  | .ishl16 o => Sys2Proof.Machine.execIshl16 o s
  | .ishr16 o => Sys2Proof.Machine.execIshr16 o s
  | .imul16 o => Sys2Proof.Machine.execImul16 o s
  | .dataReturn core n => Sys2Proof.Machine.execDataReturn core n s
  | .translationWalk core addr => Sys2Proof.Machine.execTranslationWalk core addr s
  | .faultPacketSend core => Sys2Proof.Machine.execFaultPacketSend core s
  | .outboxEntryLeave core => Sys2Proof.Machine.execOutboxEntryLeave core s
  | .messageDelivery n => Sys2Proof.Machine.execMessageDelivery n s
  | .messageRefusal n => Sys2Proof.Machine.execMessageRefusal n s
  | .holdArrival n => Sys2Proof.Machine.execHoldArrival n s
  | .readyArrival n => Sys2Proof.Machine.execReadyArrival n s
  | .taskPush n => Sys2Proof.Machine.execTaskPush n s
  | .decAtHome n => Sys2Proof.Machine.execDecAtHome n s
  | .deferredPush core => Sys2Proof.Machine.execDeferredPush core s
  | .decRefusal n => Sys2Proof.Machine.execDecRefusal n s
  | .atomicAtHome n => Sys2Proof.Machine.execAtomicAtHome n s
  | .writeBackMerge core line => Sys2Proof.Machine.execWriteBackMerge core line s
  | .activationChoice core => Sys2Proof.Machine.execActivationChoice core s
  | .idleWake core => Sys2Proof.Machine.execIdleWake core s
  | .stealProbe core => Sys2Proof.Machine.execStealProbe core s
  | .yieldDeadline core => Sys2Proof.Machine.execYieldDeadline core s
  | .sleepExpiry core => Sys2Proof.Machine.execSleepExpiry core s
  | .monitorTrigger core => Sys2Proof.Machine.execMonitorTrigger core s
  | .waittExpiry core => Sys2Proof.Machine.execWaittExpiry core s
  | .copyChunk core q => Sys2Proof.Machine.execCopyChunk core q s
  | .mmaAccumulate core => Sys2Proof.Machine.execMmaAccumulate core s
  | .repIteration core => Sys2Proof.Machine.execRepIteration core s
  | .homeAcquire n => Sys2Proof.Machine.execHomeAcquire n s
  | .surrender n => Sys2Proof.Machine.execSurrender n s
  | .acquireGrant n => Sys2Proof.Machine.execAcquireGrant n s
  | .messageAcquireGrant n => Sys2Proof.Machine.execMessageAcquireGrant n s
  | .releaseAtHome n => Sys2Proof.Machine.execReleaseAtHome n s
  | .acquireWithdrawal core => Sys2Proof.Machine.execAcquireWithdrawal core s
  | .acquireRetry core => Sys2Proof.Machine.execAcquireRetry core s
  | .crestContribution n => Sys2Proof.Machine.execCrestContribution n s
  | .crscLanding n => Sys2Proof.Machine.execCrscLanding n s
  | .expertHomeOperation n => Sys2Proof.Machine.execExpertHomeOperation n s
  | .expertAnswer n => Sys2Proof.Machine.execExpertAnswer n s
  | .launchPost q record => Sys2Proof.Machine.execLaunchPost q record s
  | .launchAdmission q => Sys2Proof.Machine.execLaunchAdmission q s
  | .stampRecheck q => Sys2Proof.Machine.execStampRecheck q s
  | .rqgoPush cluster v => Sys2Proof.Machine.execRqgoPush cluster v s
  | .rqgoDrop cluster v => Sys2Proof.Machine.execRqgoDrop cluster v s
  | .sdgo unit v => Sys2Proof.Machine.execSdgo unit v s
  | .shootdownComplete unit => Sys2Proof.Machine.execShootdownComplete unit s
  | .pvgo unit v => Sys2Proof.Machine.execPvgo unit v s
  | .vacateHandoff core => Sys2Proof.Machine.execVacateHandoff core s
  | .xtinv unit v => Sys2Proof.Machine.execXtinv unit v s
  | .skipfWrite v => Sys2Proof.Machine.execSkipfWrite v s
  | .governorPeriod => Sys2Proof.Machine.execGovernorPeriod s
  | .esnap v => Sys2Proof.Machine.execEsnap v s
  | .packageReset => Sys2Proof.Machine.execPackageReset s
  | .firmwareBoot => Sys2Proof.Machine.execFirmwareBoot s
  | .hmsg v data => Sys2Proof.Machine.execHmsg v data s
  | .hostMessageLeave => Sys2Proof.Machine.execHostMessageLeave s
  | .packageServiceMessageLeave => Sys2Proof.Machine.execPackageServiceMessageLeave s
  | .cxlMemRead addr => Sys2Proof.Machine.execCxlMemRead addr s
  | .cxlMemWrite addr data => Sys2Proof.Machine.execCxlMemWrite addr data s
  | .hostSnoop addr => Sys2Proof.Machine.execHostSnoop addr s
  | .bfgo v => Sys2Proof.Machine.execBfgo v s
  | .biasFlipComplete => Sys2Proof.Machine.execBiasFlipComplete s
  | .hostLinkDown => Sys2Proof.Machine.execHostLinkDown s
  | .hostLinkUp => Sys2Proof.Machine.execHostLinkUp s
  | .emgo core v => Sys2Proof.Machine.execEmgo core v s
  | .ergRetry core => Sys2Proof.Machine.execErgRetry core s
  | .ergFlitArrival n => Sys2Proof.Machine.execErgFlitArrival n s
  | .ergAck n => Sys2Proof.Machine.execErgAck n s
  | .ergPortDown port => Sys2Proof.Machine.execErgPortDown port s
  | .ergUnreachable pkg => Sys2Proof.Machine.execErgUnreachable pkg s
  | .ergLinkTraining port => Sys2Proof.Machine.execErgLinkTraining port s
  | .sampleRecord core => Sys2Proof.Machine.execSampleRecord core s
  | .traceFlush core => Sys2Proof.Machine.execTraceFlush core s
  | .resume core => Sys2Proof.Machine.execResume core s
  | .restart core => Sys2Proof.Machine.execRestart core s
  | .kill core => Sys2Proof.Machine.execKill core s
  | .stop core => Sys2Proof.Machine.execStop core s
  | .cancel core => Sys2Proof.Machine.execCancel core s
  | .preciseStop core => Sys2Proof.Machine.execPreciseStop core s
  | .mcfgmWrite core v => Sys2Proof.Machine.execMcfgmWrite core v s
  | .dstatWrite core v => Sys2Proof.Machine.execDstatWrite core v s
  | .cxcancel unit v => Sys2Proof.Machine.execCxcancel unit v s
  | .lbgoDispatch v => Sys2Proof.Machine.execLbgoDispatch v s
  | .lbgoDrop v => Sys2Proof.Machine.execLbgoDrop v s
  | .drqLoad n => Sys2Proof.Machine.execDrqLoad n s
  | .drqStore n => Sys2Proof.Machine.execDrqStore n s
  | .drrev n => Sys2Proof.Machine.execDrrev n s
  | .registerWrite addr v => Sys2Proof.Machine.execRegisterWrite addr v s
  | .managementPortLock => Sys2Proof.Machine.execManagementPortLock s
  | .invalidationComplete unit => Sys2Proof.Machine.execInvalidationComplete unit s
  | .attestationReport => Sys2Proof.Machine.execAttestationReport s

end Sys2Proof.Machine
end

