-- ==== Sys2Proof/Machine/Turn.lean ====
section
/-!
DEFINITION. What moves next (the model's own order, log 2), how a core fetches the instruction that it issues, caravan issue (R265), and
the code that `withFetchWord` places.
-/

namespace Sys2Proof.Machine

/-! ### Events that are due -/

/-- The step of a packet under way, number n, or none while it must wait. -/
noncomputable def packetEvent (s : State) (n : Nat) : Option Instr :=
  match packetAt s n with
  | none => none
  | some t =>
    match t with
    | .msg _ _ dst .. => if dst = 0xFFF && !s.pkg.linkUp then none else some (.messageDelivery n)
    | .hold .. => some (.holdArrival n)
    | .ready .. => some (.readyArrival n)
    | .push _ dst _ x => if pushLands s dst x then some (.taskPush n) else none
    | .dec _ ea _ _ _ => if 8 ≤ (s.coreAt (ea.extractLsb' 32 12).toNat).pushBuf.length then none else some (.decAtHome n)
    | .amo .. => some (.atomicAtHome n)
    | .msgRefused .. => some (.messageRefusal n)
    | .decRefused .. => some (.decRefusal n)
    | .acquire cairn p party excl try_ =>
      if party.msg.isSome && (acquireHeld p s || (homeAcquire cairn p party excl try_ s).1 = .full) then none else some (.homeAcquire n)
    | .surrender .. => some (.surrender n)
    | .grant _ _ core _ _ => if withdrawing s core then none else some (.acquireGrant n)
    | .msgGrant .. => some (.messageAcquireGrant n)
    | .release .. => some (.releaseAtHome n)
    | .withdraw _ _ core => some (.acquireWithdrawal core)
    | .crest .. => some (.crestContribution n)
    | .crsc .. => some (.crscLanding n)
    | .expert .. => some (.expertHomeOperation n)
    | .notice _ _ _ _ _ dst ch _ => if chV (chWord s dst ch) && channelFull s dst ch then none else some (.messageDelivery n)
    | .expertAnswer .. => some (.expertAnswer n)
    | .flit .. => some (.ergFlitArrival n)

/-- A move that is due when a condition holds. -/
def due (b : Bool) (i : Instr) : Option Instr := if b then some i else none

/-- The sequencer of a core gets on: its step changes the sequencer, the core's phase, or the outbox, whose entries a captured commit point
that waits has committed. -/
def repMoves (s : State) (k : Nat) : Bool :=
  (s.coreAt k).rep.state = 2 &&
    let t := actRepIteration k s
    (t.coreAt k).rep ≠ (s.coreAt k).rep || (t.coreAt k).phase ≠ (s.coreAt k).phase || (t.coreAt k).outbox ≠ (s.coreAt k).outbox

/-- An idle core has work of its own to choose, or a stop to make (R336, R434). -/
def hasOwnWork (s : State) (k : Nat) : Bool :=
  let s := s.focus k
  s.core.phase = .idle && (s.core.stopReq || (refusedEntry s.core).isSome || (!s.core.vac &&
    ((chooseChannel true s).isSome || (chooseRecord true s).isSome || (chooseChannel false s).isSome || (chooseRecord false s).isSome)))

/-- An idle core finds work to steal (R338). -/
def hasTheft (s : State) (k : Nat) : Bool :=
  let s := s.focus k
  s.core.phase = .idle && !s.core.vac && (steal s).isSome

/-- The cores that may have something to do: those listed, and those that serve a launch. -/
def liveCores (s : State) : List Nat :=
  s.listed ++ ((s.pkg.launches.flatMap fun l => l.slots.map (·.core)).filter fun k => !s.listed.contains k).eraseDups

/-- A core has work that another could take: records, or a cursor (R337). -/
def hasSpare (s : State) (v : Nat) : Bool :=
  (s.coreAt v).dqBot ≠ (s.coreAt v).dqTop || (cursorFor s v false).isSome

/-- The cores that probe by this order: those of the listed cores' clusters, once some core has work to spare. -/
def thieves (s : State) : List Nat :=
  if (liveCores s).any (hasSpare s) then
    s.listed ++ (((s.listed.map clusterOf).eraseDups.flatMap membersOf).filter fun k => !s.listed.contains k)
  else []

/-- The wait of a core has ended. -/
noncomputable def waitOver (s : State) (k : Nat) : Option Instr :=
  match (s.coreAt k).waiting with
  | some (.sleep t) => due (t.ule s.pkg.cyc || yieldAsked s k) (.sleepExpiry k)
  | some .mwait => due (monitorHit s k || yieldAsked s k) (.monitorTrigger k)
  | some (.waitt t trap counted) =>
    let q := dueQueues (s.coreAt k) t
    due ((t.ule s.pkg.cyc || yieldAsked s k) && (trap || q = 0 || q &&& ~~~ counted ≠ 0)) (.waittExpiry k)
  | _ => none

/-- A core's fault packet can be delivered (R76). -/
def packetMoves (s : State) (k : Nat) : Bool :=
  match (s.coreAt k).packets with
  | [] => false
  | p :: _ =>
    match packetTo k p with
    | none => true
    | some (dst, _) => takesMessage s dst 63

/-- A core's buffered trace records have waited 65,536 cycles (R431). -/
def flushDue (s : State) (c : Core) : Bool := c.trEn && !c.trBuf.isEmpty && 65536 ≤ (s.pkg.cyc - c.trSince).toNat

/-- The steps of a core's own units that are due, in an order of the model's. -/
noncomputable def coreEvents (s : State) (k : Nat) : List (Option Instr) :=
  let c := s.coreAt k
  (List.range 4).map (fun q => due (!(c.queue q).ops.isEmpty) (.copyChunk k q)) ++
  [ due (!c.inflight.isEmpty) (.dataReturn k 0),
    due (!c.mops.isEmpty) (.mmaAccumulate k),
    due (packetMoves s k) (.faultPacketSend k),
    due (outboxHead s k).isSome (.outboxEntryLeave k),
    due (!c.pushBuf.isEmpty && dequeTakes s k) (.deferredPush k),
    waitOver s k,
    due (c.ydl ≠ 0 && c.ydl.ule s.pkg.cyc && mayVacate s k) (.yieldDeadline k),
    due (c.vacReq && c.phase = .boundary && (remapAll k s).isSome) (.vacateHandoff k),
    due (c.phase = .boundary && c.exroute.isNone && !c.vacReq) (.activationChoice k),
    due (c.phase = .wait .leave && ((leaveCaravanLate (s.focus k)).core.phase ≠ .wait .leave)) (.activationChoice k),
    due (hasOwnWork s k) (.idleWake k),
    due (flushDue s c) (.traceFlush k),
    due (sampleDue s c) (.sampleRecord k),
    due (nextRemote s.pkg.cyc c.emBuf []).isSome (.ergRetry k),
    due (repMoves s k) (.repIteration k) ]

/-- A launch queue gets on. -/
def launchMoves (s : State) (q : Nat) : Bool :=
  let t := actLaunchAdmission q s
  t.pkg.launchQueues ≠ s.pkg.launchQueues || t.pkg.launches ≠ s.pkg.launches

/-- The steps of the package's own units that are due. -/
noncomputable def packageEvents (s : State) : List (Option Instr) :=
  [ due (hostMessageReady s s.pkg.hostMsgs []).isSome .hostMessageLeave,
    due (match s.pkg.services with
      | (_, bytes) :: _ => hqRoom s bytes
      | [] => false) .packageServiceMessageLeave,
    due s.pkg.bfbusy .biasFlipComplete ] ++
    (List.range 5).flatMap (fun u =>
      [due ((s.commander u).sdbusy && accessesDone s (s.commander u).shot) (.shootdownComplete u),
       due (s.commander u).xtbusy (.invalidationComplete u)]) ++
    (List.range 16).flatMap (fun q =>
      [due (launchMoves s q) (.launchAdmission q), due (stampDue s q && !reportWaits s q) (.stampRecheck q)]) ++
    s.pkg.rights.flatMap fun r => [due (r.2.busy = some 1) (.drqLoad r.1), due (r.2.busy = some 2) (.drqStore r.1)]

/-- The first event that is due. -/
noncomputable def dueEvent (s : State) : Option Instr :=
  ((List.range s.net.length).findSome? (packetEvent s)).orElse fun _ =>
    ((liveCores s).findSome? fun k => (coreEvents s k).findSome? id).orElse fun _ =>
      ((packageEvents s).findSome? id).orElse fun _ => (thieves s).findSome? fun k => due (hasTheft s k) (.idleWake k)

/-- A request that is repeated until it is served (R311). -/
noncomputable def retryEvent (s : State) : Option Instr :=
  s.listed.findSome? fun k =>
    due (match (s.coreAt k).waiting with
      | some (.acquire ..) => (actAcquireRetry k s).net ≠ s.net
      | _ => false) (.acquireRetry k)

/-! ### Stores and commands that wait (R288, R289, R354, R380, R384, R416, R417) -/

/-- A store or command that waits stands behind an earlier one: the host's writes among themselves, and those of one unit, cluster or
core. -/
def Deferral.behind (x y : Deferral) : Bool :=
  (x.isHost && y.isHost) ||
    match x, y with
    | .rqgo a _, .rqgo b _ => a = b
    | .sdgo a _, .sdgo b _ => a = b
    | .pvgo a _, .pvgo b _ => a = b
    | .xtinv a _, .xtinv b _ => a = b
    | .restart a, .restart b | .restart a, .kill b | .kill a, .restart b | .kill a, .kill b => a = b
    | _, _ => false

/-- A store or command that waits, performed: it waits again where it still must. -/
def perform (x : Deferral) (s : State) : State :=
  match x with
  | .register a v => hostStore a v s
  | .hmsg v data => hostMessage v data s
  | .launch q r => enqueueLaunch q r s
  | .skipf v => writeSkipf v s
  | .esnap _ => snapEnergy s
  | .bfgo v => if s.pkg.bfbusy then s.defer (.bfgo v) else startFlip s
  | .rqgo g v => actRqgoPush g v s
  | .sdgo u v => actSdgo u v s
  | .pvgo u v => actPvgo u v s
  | .xtinv u v => actXtinv u v s
  | .restart k => actRestart k s
  | .kill k => actKill k s

/-- The n-th store or command that waits is performed, if it need wait no longer. -/
def runDeferred (n : Nat) (s : State) : State :=
  match s.deferred[n]? with
  | none => s
  | some x =>
    if (s.deferred.take n).any x.behind then s
    else
      let s' := { s with deferred := s.deferred.eraseIdx n }
      let t := perform x s'
      if t.deferred = s'.deferred ++ [x] then s else t

/-- The first of them that is due. -/
noncomputable def dueDeferred (s : State) : Option Nat :=
  (List.range s.deferred.length).find? fun n => decide ((runDeferred n s).deferred ≠ s.deferred)

/-! ### The order of moves -/

/-- The leader of the caravan of core k; k itself where it is in none. -/
def leaderOf (s : State) (k : Nat) : Nat := k - (s.coreAt k).cvPos

/-- A leader may issue: its followers have issued its last instruction, and none of them waits (R265). -/
def leaderFree (s : State) (k : Nat) : Bool :=
  (s.coreAt k).followers.isEmpty && (caravan s k).all fun m => m = k || (s.coreAt m).phase = .follower

/-- A follower has its leader's last instruction still to issue, and those at lower positions have issued it (R265, R266). -/
def followerDue (s : State) (k : Nat) : Bool :=
  (s.coreAt k).phase = .follower && (s.coreAt (leaderOf s k)).followers.head? = some k

/-- A core may issue. -/
def mayIssue (s : State) (k : Nat) : Bool := ((s.coreAt k).phase = .run && leaderFree s k) || followerDue s k

/-- The core that issues next, in turn after the one whose turn it is; that one where none may. -/
def nextCore (s : State) : Nat :=
  let able := s.listed.filter (mayIssue s)
  match able.find? fun k => decide (s.cid < k) with
  | some k => k
  | none => (able.find? (· ≠ s.cid)).getD s.cid

/-- A period of the governor has ended, and some move has been made since the one before (R409). -/
def governorDue (s : State) : Bool := !s.governed && decide (850 ≤ (s.pkg.cyc - s.pkg.pgFrom).toNat)

/-- The move that the model chooses where the agenda lists none: an event that is due, else the next core's instruction; a request
repeated only where the last instruction has stalled or no core may issue, and a period of the governor so that it keeps neither back. -/
noncomputable def chooseMove (s : State) : Move :=
  match dueEvent s with
  | some i => .event i
  | none =>
    match dueDeferred s with
    | some n => .deferred n
    | none =>
      match (if s.held || !(s.listed.any (mayIssue s)) then retryEvent s else none), governorDue s with
      | some i, d => .event (if d && !s.held then .governorPeriod else i)
      | none, true => .event .governorPeriod
      | none, false => .issue (nextCore s)

/-- The next move. -/
noncomputable def nextMove (s : State) : Move :=
  match s.agenda with
  | m :: _ => m
  | [] => chooseMove s

/-- The state with the move taken from the agenda. -/
def takeMove (s : State) : State := { s with agenda := s.agenda.tail, held := false, governed := false }

/-- A move that is neither an event of the opcode table nor a core's issue (R305, R411, R426, R427). -/
def otherMove (m : Move) (s : State) : State :=
  match m with
  | .deferred n => runDeferred n s
  | .recall phys => recallLine phys s
  | .inbound pkg sender dst ch bytes => messageInbound pkg sender dst ch bytes s
  | .answers pkg => packageAnswers pkg s
  | .corrected kind n => { s with corrections := s.corrections ++ [(kind, n)] }
  | .event _ | .issue _ => s

/-- The cycles that a step takes: at least one, the rest free (R3, R443). -/
def advance (s t : State) : State :=
  t.modPkg fun p => { p with cyc := p.cyc + 1 + BitVec.ofNat 64 (Config.stepCycles s.pkg.cyc.toNat) }

/-- A step's end: its cycles pass, the traces see what waits, and corrected errors are counted (R3, R411, R429). -/
def tick (s t : State) : State := settleErrors (traceWaits (advance s t))

/-! ### Fetching (R80, R218) -/

/-- What a core's fetch comes to. -/
inductive Fetched where
  /-- It stopped: a fault, a park, an abort, or nothing to issue. -/
  | stopped (t : State)
  /-- The repetition buffer has taken the instruction. -/
  | captured (t : State)
  /-- An instruction to execute. -/
  | insn (i : Instr) (t : State)

/-- The instruction of a fetched word. -/
noncomputable def decodeWord (w : BitVec 32) : Except Illegal Instr :=
  if w.getLsbD 0 then decode32 w else decode16 (w.extractLsb' 0 16)

/-- A turn in which the core cannot issue. -/
def idleTurn (s : State) : State := { s with held := true }

/-- Before an instruction issues: a supervisor command has waited for the one before to retire, and waits still for the answer of an EXROUTE
(R146, R235, R384, R403), or the yield deadline has passed (R352). -/
def beforeIssue (s : State) : Option State :=
  match s.core.closing with
  | some x => if s.core.committed then none else some (if s.core.exroute.isSome then idleTurn s else closeNow x s)
  | none =>
  if s.core.ydl ≠ 0 && s.core.ydl.ult s.pkg.cyc && mayVacate s s.cid then some (forcedVacate s) else none

/-- A fetched word goes to the repetition buffer (R218): it is captured, or the capture ends in a fault. A hint word ends it like any
other instruction that is not capturable. DEDUCED (log 21): R102 speaks of a hint that executes. -/
noncomputable def captureWord (w : BitVec 32) (s : State) : State :=
  match decodeWord w with
  | .ok (.pfx o) => capturePair o s
  | r =>
    if capturableWord w then capture none w r.toOption (if w.getLsbD 0 then 4 else 2) s else refuseCapture s

/-- The core whose turn it is fetches and decodes the instruction at its PC. -/
noncomputable def Core.fetched (c : Core) (s : State) : Fetched :=
  match fetchInsn c.pc s with
  | .error e => .stopped (fetchStops e s)
  | .ok (w, t) =>
    let t := { t with core := t.core.latch w }
    if c.capturing then .captured (captureWord w t)
    else
      match decodeWord w with
      | .error _ => .stopped (takeFault { cause := 0x01 } t)
      | .ok i => .insn i t

/-- What a follower, whose fetch is switched off, does of the instruction that its leader has issued (R264, R265, R218). -/
def Core.carried (c : Core) (x : Captured) (s : State) : Fetched :=
  let t := { s with core := { c with insn := x.insn, pfx := x.pfx, repAt := none } }
  if c.capturing then .captured { t with core := { t.core with rep := { c.rep with cap := c.rep.cap ++ [x] } } }
  else match x.instr with
    | some i => .insn i t
    | none => .stopped t

/-- The instruction in issue of a core whose retirement a supervisor command awaits, or that no abort may undo any more, as it was
latched: it is fetched no second time (R146, R235, R403). -/
noncomputable def Core.latched (c : Core) (s : State) : Fetched :=
  match decodeWord c.insn with
  | .ok i => .insn i s
  | .error _ => .stopped (takeFault { cause := 0x01 } s)

/-- What the core whose turn it is, at its instruction, is to execute. -/
noncomputable def fetchTurn (s : State) : Fetched :=
  match beforeIssue s with
  | some t => .stopped t
  | none =>
    if s.core.closing.isSome then s.core.latched s
    else if s.core.cvPos = 0 then (if s.core.mustRetire then s.core.latched s else s.core.fetched s)
    else match (s.coreAt (leaderOf s s.cid)).carIns with
      | some x => s.core.carried x s
      | none => .stopped s

/-- An instruction executed; a wait that held issue ends in the trace when it no longer does (R429). -/
def runInsn (ex : Instr → State → Host.Outcome State Fault Refusal) (i : Instr) (s : State) : Host.Outcome State Fault Refusal :=
  if !s.core.trEn then ex i s
  else
    match ex i s with
    | .next t => if t.held then .next t else ex i (traceIssue s.cid s)
    | .fault r => .fault r
    | .refused r => .refused r

/-! ### Caravan issue (R265) -/

/-- What a follower does of a control-flow instruction: it reads no condition and no target, writes the link, and goes where its leader has
gone. -/
def followerAct (i : Instr) : Option (Act Unit) :=
  match i with
  | .beq _ | .bne _ | .blt _ | .bge _ | .bltu _ | .bgeu _ => some alongLeader
  | .jal o => some (linkAlone o.d)
  | .jalr o => some (linkAlone o.d)
  | _ => none
where
  /-- It retires on its leader's path. -/
  alongLeader : Act Unit := do retireTo (← askS fun s => (s.coreAt (leaderOf s s.cid)).pc)
  /-- The link written. -/
  linkAlone (d : BitVec 5) : Act Unit := do
    awaitS d
    let v ← ask (·.next)
    writeS d v
    alongLeader

/-- An instruction as a member of a caravan, or a core in none, executes it: a follower has the prefix of a pair with its
instruction, and so has an instruction that was latched. -/
def memberRun (ex : Instr → State → Host.Outcome State Fault Refusal) (i : Instr) (s : State) : Host.Outcome State Fault Refusal :=
  if s.core.pfx.isSome then finish (prefixedAct i) s
  else if s.core.cvPos = 0 then ex i s
  else match followerAct i with
    | some m => finish m s
    | none => ex i s

/-- The instruction that the leader has issued, or captured, as its followers take it. -/
def issuedAs (i : Option Instr) (pc : Word) (c : Core) : Option Captured :=
  match i with
  | none => c.rep.cap.getLast?
  | some (.pfx o) => some ⟨pc, some (Pfx.of o), c.insn, pairInstr o c.insn⟩
  | some i => some ⟨pc, c.pfx, c.insn, some i⟩

/-- The leader has issued an instruction at an address, or captured one: its followers have still to. -/
def leaderIssued (k : Nat) (i : Option Instr) (pc : Word) (s : State) : State :=
  if s.held || (s.coreAt k).cvSize = 0 then s
  else s.modCore k fun c =>
    { c with followers := (List.range (c.cvSize - 1)).map (k + 1 + ·), carPc := pc, carIns := issuedAs i pc c }

/-- A follower has issued its leader's instruction: it follows the leader's path. -/
def followerIssued (k : Nat) (s : State) : State :=
  if s.held || (s.coreAt k).cvSize = 0 then s
  else
    let l := leaderOf s k
    let pc := (s.coreAt l).pc
    let s := s.modCore l fun c => { c with followers := c.followers.filter (· ≠ k) }
    if (s.coreAt k).phase = .follower then s.modCore k fun c => { c with pc := pc } else s

/-- What a caravan member's issue, or capture, comes to for its caravan; a core in none has none. -/
def caravanAfter (i : Option Instr) (old t : State) : State :=
  if old.core.cvSize = 0 then t
  else if old.core.cvPos = 0 then leaderIssued old.cid i old.core.pc t
  else followerIssued old.cid t

/-- The core whose turn it is, at the instruction that it is to issue: a follower's is its leader's. -/
def atTurn (s : State) : Option State :=
  if s.core.phase = .run then (if s.core.cvSize = 0 || leaderFree s s.cid then some s else none)
  else if followerDue s s.cid then some { s with core := { s.core with pc := (s.coreAt (leaderOf s s.cid)).carPc } }
  else none

/-! ### Placing code -/

/-- The object, and the physical places of its entry, extent and bytes, that placed code uses. -/
def codeAt : Nat := 0x10_0000
def codeExtent : Nat := 0x20_0000

/-- Code bytes in object 1, mapped with every permission but update, and the core running at its first byte, its turn next. -/
def placeCode (code : List Byte) (s : State) : State :=
  let base := s.pkg.pkgid.toNat * 2 ^ 46
  let s := physPut s (base + codeAt) code
  let s := physPutNat s (base + codeExtent) 16 (2 ^ 44 + (base + codeAt) * 2 ^ 64)
  let s := physPutNat s (entryAddr s 1) 24 (1 + 15 * 2 + 2 ^ 32 + 2 ^ 12 * 2 ^ 64 + (base + codeExtent) * 2 ^ 128)
  { s with
    agenda := [.issue s.cid]
    held := false
    core := { s.core with
      pc := objAddr 1 0
      rpc := objAddr 1 0
      phase := .run
      ilines := []
      cvPos := 0
      cvSize := 0
      closing := none
      orphan := false
      ydl := 0
      rep := Rep.reset } }

end Sys2Proof.Machine
end

