-- ==== Sys2Proof/Machine/Step.lean ====
section
/-!
DEFINITION. One step of the package: the move whose turn it is, carried out, and the cycles that it takes. The placing of one
instruction where the next step fetches.
-/

namespace Sys2Proof.Machine

/-- A core issues: it waits, captures for the repetition buffer, or fetches, decodes and executes. -/
noncomputable def issueStep (s : State) : Host.Outcome State Fault Refusal :=
  match atTurn s with
  | none => .next (idleTurn s)
  | some s' =>
    match fetchTurn s' with
    | .stopped t => .next t
    | .captured t => .next (caravanAfter none s' t)
    | .insn i t =>
      match runInsn (memberRun exec) i t with
      | .next u => .next (caravanAfter (some i) s' u)
      | .fault r => .fault r
      | .refused r => .refused r

/-- The move of a step carried out, or the model's own choice where none is listed. -/
noncomputable def moveStep (s : State) : Host.Outcome State Fault Refusal :=
  match nextMove s with
  | .issue k => issueStep ((takeMove s).focus k)
  | .event i => if i.isEvent then exec i (takeMove s) else .next (takeMove s)
  | m => .next (otherMove m (takeMove s))

/-- ONE STEP of the package. -/
noncomputable def step (s : State) : Host.Outcome State Fault Refusal :=
  match moveStep s with
  | .next t => .next (tick s t)
  | .fault r => .fault r
  | .refused r => .refused r

/-- The instruction whose bits are `w` stored at the program counter, in an object mapped for execution, and the core whose turn
it is running there: the very next step fetches and executes it. -/
def State.withFetchWord (s : State) (_nbits w : Nat) : State := placeCode (tableBytes w) s

end Sys2Proof.Machine
end

