-- ==== Sys2Proof/Safety.lean ====
section
/-!
DEFINITION. What claims are stated in: a step that goes on, the conditions on the core and the operands under which an
instruction completes, and what completing does to the core beside the result.
-/

namespace Sys2Proof.Machine

/-- A step goes on. -/
def Goes (o : Host.Outcome State Fault Refusal) : Prop := ∃ t, o = .next t

/-- The core whose turn it is, changed. -/
def State.now (s : State) (f : Core → Core) : State := { s with core := f s.core }

/-! ### Conditions -/

/-- A hardware breakpoint of a core may fire at an address: one that names a TAG only where the core's activation has it, or its caravan's
leader's may (R433). -/
def Core.mayBreak (c : Core) (pc : Word) : Bool :=
  [0, 1].any fun n =>
    let b := c.bppc.toList.getD n 0
    b.getLsbD 0 && (b &&& ~~~ 1#64) = pc && (c.cvPos ≠ 0 || tagMatches c.act (c.bptag.toList.getD n 0))

/-- The sequencer does not issue, and no hardware breakpoint stands at the instruction (R219, R433). -/
abbrev Core.Calm (c : Core) : Prop := c.repAt = none ∧ c.mayBreak c.pc = false

/-- A scalar register is full (R48). -/
abbrev Core.Full (c : Core) (r : BitVec 5) : Prop := c.isFull r.toNat = true

/-- A scalar register may be written: full (R51), and no source of a running sequence (R220). -/
abbrev Core.Writable (c : Core) (d : BitVec 5) : Prop := c.isFull d.toNat = true ∧ repSource c d.toNat = false

/-- No sequence runs (R220), and the core is calm. -/
abbrev Core.VectorCalm (c : Core) : Prop := c.Calm ∧ c.rep.state ≠ 2

/-- A vector operand of a type is full: a pair's two registers, the first even (R99). -/
abbrev Core.VFull (c : Core) (ty : Nat) (r : BitVec 5) : Prop :=
  c.vIsFull r.toNat = true ∧ (isPairTy ty = true → r.toNat % 2 = 0 ∧ c.vIsFull (r.toNat + 1) = true)

/-- The vb operand of a type is full: a vector's registers, or a broadcast scalar (R83). -/
abbrev Core.VbFull (c : Core) (ty : Nat) (bs : BitVec 1) (vb : BitVec 5) : Prop :=
  if bs = 1 then c.Full vb else c.VFull ty vb

/-- A commit point may commit at once: nothing of the region was refused or is to be translated anew, no line is of an uncached
object, no older entry waits, no sequence runs, and no expert answer is awaited (R68, R220, R256, R292, R384). -/
abbrev Core.Settled (c : Core) : Prop :=
  c.committed = false ∧ c.exroute = none ∧ c.rep.state ≠ 2 ∧ c.rep.state ≠ 3 ∧
  (∀ l ∈ c.lines, l.recheck = false ∧ l.cls ≠ 2) ∧
  ∀ e ∈ c.outbox, e.committed = false ∧ e.refused = false ∧ e.recheck = false

/-- The instruction in issue begins: nothing is kept of it that it has read or sent after its commit (R232, R343, R404). -/
abbrev Core.Begins (c : Core) : Prop := c.image = [] ∧ c.trapsDue = none

/-! ### Operands -/

/-- The lanes of a vector operand: a pair's lanes join two registers (R13, R159). -/
def Core.lanes (c : Core) (ty : Nat) (r : BitVec 5) : List Nat :=
  if isPairTy ty then
    List.zipWith (fun (a b : Nat) => a + b * 2 ^ 32) (VReg.nats (c.v r.toNat)) (VReg.nats (c.v (r.toNat + 1)))
  else VReg.nats (c.v r.toNat)

/-- The lanes of the vb operand (R83). -/
def Core.vbLanes (c : Core) (ty : Nat) (bs : BitVec 1) (vb : BitVec 5) : List Nat :=
  if bs = 1 then List.replicate 128 (broadcast ty (c.s vb.toNat)) else c.lanes ty vb

/-! ### Places -/

/-- `w` bytes at an address are aligned and lie in the own scratchpad, through space 1, in a block without an uncorrectable error
(R141, R251). -/
abbrev State.OwnBytes (s : State) (ea : Word) (w : Nat) : Prop :=
  s.cid < 3072 ∧ ea.toNat % w = 0 ∧ ea.extractLsb' 60 4 = 9 ∧ (ea.extractLsb' 0 60).toNat + w ≤ 2 ^ 20 ∧
  blockOf (scratch s s.cid (ea.extractLsb' 0 60).toNat) ∉ s.ecc

/-- The core has the turn to access its own scratchpad: no sequence that touches memory runs (R220), and no posted atomic of the core to
it has committed and is still to be performed there (R253). -/
abbrev State.OwnTurn (s : State) : Prop := s.core.seqTouches = false ∧ postedAhead s (scratch s s.cid 0) = false

/-- An access of such bytes may be performed at once. -/
abbrev State.OwnScratch (s : State) (ea : Word) (w : Nat) : Prop := s.OwnBytes ea w ∧ s.OwnTurn

/-- The physical address of that place. -/
def State.ownPlace (s : State) (ea : Word) : Nat := scratch s s.cid (ea.extractLsb' 0 60).toNat

/-- The place may be written: it is no part of the system area (R61). -/
abbrev Unreserved (ea : Word) (w : Nat) : Prop :=
  (ea.extractLsb' 0 60).toNat + w ≤ 0xD8000 ∨ 0xE0000 ≤ (ea.extractLsb' 0 60).toNat

/-- Memory, host memory and the tags are in canonical form. -/
def State.Canonical (s : State) : Prop := Memory.wf s.mem = true ∧ Memory.wf s.host = true ∧ tagsFrom 0 s.tags = true

/-- An entry of the expert table lies in this package's DRAM, and memory is in canonical form. -/
def ExpertHome (s : State) (x : BitVec 16) : Prop :=
  s.Canonical ∧ kindOf (expertAddr s x) = 0 ∧ expertAddr s x % 1024 = 0

/-- Every byte of the package's memory and of host memory outside `w` bytes from `p` up, and every tag, is as before. -/
def SameBytesBut (p w : Nat) (s t : State) : Prop :=
  (∀ a, (a < p ∨ p + w ≤ a) → cellGet t.mem a = cellGet s.mem a) ∧ t.host = s.host ∧ t.tags = s.tags

/-! ### Completion -/

/-- An instruction has retired and control goes to an address. -/
def Core.goTo (c : Core) (pc : Word) : Core := { c.settled with pc := pc, phase := c.ready }

/-- An instruction has retired and control goes to the next. -/
def Core.stepped (c : Core) : Core := c.goTo c.next

/-- A commit point has retired: the next region opens at the next instruction (R67). -/
def Core.renewed (c : Core) : Core := { c.stepped with rpc := c.next }

/-- An instruction has written a scalar register and retired. -/
def Core.result (c : Core) (d : BitVec 5) (v : Word) : Core := (c.setS d.toNat v).stepped

/-- A vector instruction has raised its lanes' flags, written its destination under the frame and retired (R36, R160). -/
def Core.delivered (c : Core) (ty : Nat) (vd : BitVec 5) (rs : List (Nat × Fl)) : Core :=
  ((c.raise (rs.map (·.2))).writeLanes ty vd.toNat (rs.map (·.1))).stepped

end Sys2Proof.Machine
end

