-- ==== Sys2Proof/Certificates/Slice0/Obligations.lean ====
section
/-!
DEFINITION. The statements for the provers, each a rule of the spec or what follows from several, about one instruction shape, one
kind of state, or the machine as a whole.
-/

open Sys2Proof Sys2Proof.Machine

/-! ### Scalar registers and the ALU (R47 to R51, R129 to R138) -/

/-- R130, R132: each two-source ALU instruction writes `d` with the value of its row and retires; nothing else changes. R130,
R132: the one-source ALU instructions and the conditional move. The counts are stated by what they count: bit `k` is the highest
or the lowest one bit. R131: division never traps. The two cases that it cannot compute are fixed; in every other case a = q × b +
r with |r| < |b|, and the remainder has the sign of a. -/
def Obligations.ScalarAlu : Prop :=
  (∀ (s : State) (o : RArgs), s.core.Calm → s.core.Full o.a → s.core.Full o.b → s.core.Writable o.d →
    let x := s.core.s o.a.toNat
    let y := s.core.s o.b.toNat
    let gives (v : Word) : Host.Outcome State Fault Refusal := .next (s.now (·.result o.d v))
    exec (.add o) s = gives (x + y) ∧
    exec (.sub o) s = gives (x - y) ∧
    exec (.and o) s = gives (x &&& y) ∧
    exec (.or o) s = gives (x ||| y) ∧
    exec (.xor o) s = gives (x ^^^ y) ∧
    exec (.sll o) s = gives (x <<< (y.extractLsb' 0 6).toNat) ∧
    exec (.srl o) s = gives (x >>> (y.extractLsb' 0 6).toNat) ∧
    exec (.sra o) s = gives (x.sshiftRight (y.extractLsb' 0 6).toNat) ∧
    exec (.rol o) s = gives (x <<< (y.extractLsb' 0 6).toNat ||| x >>> (64 - (y.extractLsb' 0 6).toNat)) ∧
    exec (.slt o) s = gives (if x.toInt < y.toInt then 1 else 0) ∧
    exec (.sltu o) s = gives (if x.toNat < y.toNat then 1 else 0) ∧
    exec (.min o) s = gives (if x.toInt < y.toInt then x else y) ∧
    exec (.max o) s = gives (if x.toInt < y.toInt then y else x) ∧
    exec (.minu o) s = gives (if x.toNat < y.toNat then x else y) ∧
    exec (.maxu o) s = gives (if x.toNat < y.toNat then y else x) ∧
    exec (.mul o) s = gives (x * y) ∧
    exec (.mulh o) s = gives ((BitVec.ofInt 128 (x.toInt * y.toInt)).extractLsb' 64 64) ∧
    exec (.mulhu o) s = gives ((BitVec.ofNat 128 (x.toNat * y.toNat)).extractLsb' 64 64) ∧
    exec (.omk o) s = gives (0#1 ++ x.extractLsb' 0 23 ++ y.extractLsb' 0 40) ∧
    exec (.lspc o) s = gives (1#1 ++ x.extractLsb' 0 3 ++ y.extractLsb' 0 60)) ∧
  (∀ (s : State) (o : RArgs), s.core.Calm → s.core.Full o.a → s.core.Writable o.d →
    let x := s.core.s o.a.toNat
    let gives (v : Word) : Host.Outcome State Fault Refusal := .next (s.now (·.result o.d v))
    (x = 0 → exec (.clz o) s = gives 64 ∧ exec (.ctz o) s = gives 64) ∧
    (∀ k < 64, x.getLsbD k = true → (∀ j, k < j → x.getLsbD j = false) → exec (.clz o) s = gives (BitVec.ofNat 64 (63 - k))) ∧
    (∀ k < 64, x.getLsbD k = true → (∀ j < k, x.getLsbD j = false) → exec (.ctz o) s = gives (BitVec.ofNat 64 k)) ∧
    exec (.popc o) s = gives (BitVec.ofNat 64 ((List.range 64).filter x.getLsbD).length) ∧
    exec (.oid o) s = gives (if x.getLsbD 63 then 0 else (x.extractLsb' 40 23).setWidth 64) ∧
    exec (.ooff o) s = gives (if x.getLsbD 63 then (x.extractLsb' 0 60).setWidth 64 else (x.extractLsb' 0 40).setWidth 64) ∧
    (s.core.Full o.b → exec (.cmov o) s = gives (if x ≠ 0 then s.core.s o.b.toNat else s.core.s o.d.toNat))) ∧
  (∀ (s : State) (o : RArgs), s.core.Calm → s.core.Full o.a → s.core.Full o.b → s.core.Writable o.d →
    let x := s.core.s o.a.toNat
    let y := s.core.s o.b.toNat
    let gives (v : Word) : Host.Outcome State Fault Refusal := .next (s.now (·.result o.d v))
    (y = 0 → exec (.div o) s = gives 0xFFFF_FFFF_FFFF_FFFF ∧ exec (.divu o) s = gives 0xFFFF_FFFF_FFFF_FFFF ∧
      exec (.rem o) s = gives x ∧ exec (.remu o) s = gives x) ∧
    (x = 0x8000_0000_0000_0000 → y = 0xFFFF_FFFF_FFFF_FFFF →
      exec (.div o) s = gives 0x8000_0000_0000_0000 ∧ exec (.rem o) s = gives 0) ∧
    (y ≠ 0 → ¬ (x = 0x8000_0000_0000_0000 ∧ y = 0xFFFF_FFFF_FFFF_FFFF) →
      ∃ q r : Word, exec (.div o) s = gives q ∧ exec (.rem o) s = gives r ∧
        x.toInt = q.toInt * y.toInt + r.toInt ∧ r.toInt.natAbs < y.toInt.natAbs ∧ (r ≠ 0 → (r.toInt < 0 ↔ x.toInt < 0))) ∧
    (y ≠ 0 → ∃ q r : Word, exec (.divu o) s = gives q ∧ exec (.remu o) s = gives r ∧
        x.toNat = q.toNat * y.toNat + r.toNat ∧ r.toNat < y.toNat))

/-- R134, R135, R136: the immediate forms. -/
def Obligations.ImmediateAlu : Prop :=
  (∀ (s : State) (o : IArgs), s.core.Calm → s.core.Full o.a → s.core.Writable o.d →
    let x := s.core.s o.a.toNat
    let y := o.imm.signExtend 64
    let gives (v : Word) : Host.Outcome State Fault Refusal := .next (s.now (·.result o.d v))
    exec (.addi o) s = gives (x + y) ∧
    exec (.andi o) s = gives (x &&& y) ∧
    exec (.ori o) s = gives (x ||| y) ∧
    exec (.xori o) s = gives (x ^^^ y) ∧
    exec (.slti o) s = gives (if x.toInt < y.toInt then 1 else 0) ∧
    exec (.sltiu o) s = gives (if x.toNat < y.toNat then 1 else 0)) ∧
  (∀ (s : State) (o : ShArgs), s.core.Calm → s.core.Full o.a → s.core.Writable o.d →
    let x := s.core.s o.a.toNat
    let gives (v : Word) : Host.Outcome State Fault Refusal := .next (s.now (·.result o.d v))
    exec (.slli o) s = gives (x <<< o.n.toNat) ∧
    exec (.srli o) s = gives (x >>> o.n.toNat) ∧
    exec (.srai o) s = gives (x.sshiftRight o.n.toNat) ∧
    exec (.roli o) s = gives (x <<< o.n.toNat ||| x >>> (64 - o.n.toNat))) ∧
  ∀ (s : State) (o : UArgs), s.core.Calm → s.core.Writable o.d →
    exec (.lui o) s = .next (s.now (·.result o.d ((o.imm ++ 0#12).signExtend 64))) ∧
    exec (.auipc o) s = .next (s.now (·.result o.d (s.core.pc + (o.imm ++ 0#12).signExtend 64)))

/-- R137, R84: a branch of a core in no caravan, or of a caravan's leader alone: taken, it goes to PC + 2 × disp12; not taken, to
the next instruction; no register changes. R138: JAL and JALR write PC + 4 to `d` and go to their target; JALR reads `a` first and
clears bit 0 of its target. -/
def Obligations.ControlFlow : Prop :=
  (∀ (s : State) (o : BArgs), s.core.Calm → s.core.cvPos = 0 → s.core.Full o.a → s.core.Full o.b →
    let x := s.core.s o.a.toNat
    let y := s.core.s o.b.toNat
    let goes (taken : Prop) [Decidable taken] : Host.Outcome State Fault Refusal :=
      .next (s.now fun c => if taken then c.goTo (c.pc + 2 * o.disp.signExtend 64) else c.stepped)
    exec (.beq o) s = goes (x = y) ∧
    exec (.bne o) s = goes (x ≠ y) ∧
    exec (.blt o) s = goes (x.toInt < y.toInt) ∧
    exec (.bge o) s = goes (y.toInt ≤ x.toInt) ∧
    exec (.bltu o) s = goes (x.toNat < y.toNat) ∧
    exec (.bgeu o) s = goes (y.toNat ≤ x.toNat)) ∧
  ((∀ (s : State) (o : UArgs), s.core.Calm → s.core.Writable o.d →
    exec (.jal o) s = .next (s.now fun c => (c.setS o.d.toNat (c.pc + 4)).goTo (c.pc + 2 * o.imm.signExtend 64))) ∧
  ∀ (s : State) (o : IArgs), s.core.Calm → s.core.cvPos = 0 → s.core.Full o.a → s.core.Writable o.d →
    exec (.jalr o) s = .next (s.now fun c =>
      (c.setS o.d.toNat (c.pc + 4)).goTo ((c.s o.a.toNat + o.imm.signExtend 64) &&& 0xFFFF_FFFF_FFFF_FFFE)))

/-- R47, R48: s0 reads zero, is always full, and discards writes; any other register reads what was written last and no other
register changes with it. R50, R51: an empty source freezes the core with cause 0x02 where its t bit is 1, without effect, and
holds the instruction at issue where it is 0; an empty destination holds it at issue. Stated for ADD and ADDI. -/
def Obligations.ScalarRegisters : Prop :=
  (∀ (c : Core) (k : Nat) (v : Word), k < 32 →
    c.s 0 = 0 ∧ c.isFull 0 = true ∧ c.setS 0 v = c ∧
    (k ≠ 0 → (c.setS k v).s k = v ∧ (c.setS k v).isFull k = true) ∧
    ∀ j, j ≠ k → (c.setS k v).s j = c.s j ∧ (j < 32 → (c.setS k v).isFull j = c.isFull j)) ∧
  (∀ (s : State), s.core.repAt = none → s.core.trEn = false →
    (∀ o : RArgs, ¬ s.core.Full o.a →
      exec (.add o) s = .next (if o.ta = 1 then takeFault { cause := 0x02 } s else { s with held := true })) ∧
    (∀ o : RArgs, s.core.Full o.a → ¬ s.core.Full o.b →
      exec (.add o) s = .next (if o.tb = 1 then takeFault { cause := 0x02 } s else { s with held := true })) ∧
    (∀ o : IArgs, ¬ s.core.Full o.a →
      exec (.addi o) s = .next (if o.ta = 1 then takeFault { cause := 0x02 } s else { s with held := true })) ∧
    ∀ o : IArgs, s.core.Full o.a → ¬ s.core.Full o.d → exec (.addi o) s = .next { s with held := true })

/-! ### Memory (R63, R66, R141 to R152, R402) -/

/-- R142: a load from the own scratchpad writes `d`, at retirement, with the bytes at the address, little-endian: extended by
zeros for the sizes BU, HU and WU, by sign for B, H, W and D. Every byte of memory and every other field stays. R66, R143: a store
to the own scratchpad writes the low bytes of s[d], little-endian, at once and is not held back: no line and no outbox entry
changes, and every other byte and every tag stays. -/
def Obligations.ScratchpadAccess : Prop :=
  (∀ (s : State) (o : MArgs), s.core.Calm → s.core.Full o.base → s.core.Writable o.d → o.size ≠ 7 →
    let w := 2 ^ (o.size.toNat % 4)
    let ea := s.core.s o.base.toNat + o.imm.signExtend 64 * BitVec.ofNat 64 w
    let n := physNat s (s.ownPlace ea) w
    s.OwnScratch ea w →
    exec (.ld o) s = .next (s.now (·.result o.d
      (if 4 ≤ o.size.toNat then BitVec.ofNat 64 n else (BitVec.ofNat (8 * w) n).signExtend 64)))) ∧
  (∀ (s : State) (o : MArgs), s.core.Calm → s.core.Full o.base → s.core.Full o.d → o.size.toNat < 4 → s.Canonical →
    let w := 2 ^ o.size.toNat
    let ea := s.core.s o.base.toNat + o.imm.signExtend 64 * BitVec.ofNat 64 w
    s.OwnScratch ea w → Unreserved ea w →
    ∃ t, exec (.st o) s = .next t ∧
      physNat t (s.ownPlace ea) w = (s.core.s o.d.toNat).toNat % 2 ^ (8 * w) ∧
      SameBytesBut (s.ownPlace ea) w s t ∧ t.core = s.core.stepped ∧ t.others = s.others)

/-- R63, R182: a merge under a byte mask takes the masked bytes from the new block and every other byte from the old one; the mask
of `n` bytes at `off` covers exactly them; and a value placed at `off` has its bytes there, the lowest first. -/
def Obligations.MergeUnderMask : Prop :=
  (∀ (old new : BitVec 512) (m : BitVec 64) (k : Nat), k < 64 →
    byteOf (mergeBlock old new m) k = if m.getLsbD k then byteOf new k else byteOf old k) ∧
  (∀ off n k : Nat, off + n ≤ 64 → k < 64 → ((byteMask off n).getLsbD k = true ↔ off ≤ k ∧ k < off + n)) ∧
  ∀ (off : Nat) (bs : List Byte) (k : Nat), off + bs.length ≤ 64 → k < bs.length →
    byteOf (placed off bs) (off + k) = bs.getD k 0

/-- R63, R64, R66, R143: a store to object memory whose line L1 holds with write permission stays in that line, uncommitted dirty,
under the mask of its bytes, without the reserved bits of an expert's header (R371); memory itself, the tag and every other line
stay. A store of hint .na leaves the line's place in the replacement order. R402: a .upd store whose step has its skip flag set
writes nothing and still retires; without the flag it is held back in its line like a store of normal hint. Its STEP word is read
at issue, here from the own scratchpad. -/
def Obligations.HeldBackStores : Prop :=
  (∀ (s : State) (o : MArgs) (l : Line), s.core.Calm → s.core.Full o.base → s.core.Full o.d → o.size.toNat < 4 → o.hint.toNat < 2 →
    let w := 2 ^ o.size.toNat
    let ea := s.core.s o.base.toNat + o.imm.signExtend 64 * BitVec.ofNat 64 w
    s.core.seqTouches = false → ea.getLsbD 63 = false → ea.toNat % w = 0 → servingLine s.core ea w .write = some l →
    (l.unc = true ∨ uncommitted s.core < 256) →
    let mask := byteMask (objOff ea % 64) w
    let l' : Line :=
      { l with
        data := mergeBlock l.data (asHeld s l.phys (placed (objOff ea % 64) (leBytes w (s.core.s o.d.toNat).toNat))) mask
        valid := l.valid ||| mask
        dirty := l.dirty ||| mask
        unc := true
        low := l.low && decide (o.hint = 1) }
    exec (.st o) s = .next (s.now fun c => Core.stepped { c with lines := setLine c.lines l' })) ∧
  (∀ (s : State) (o : MuArgs) (l : Line), s.core.Calm → s.core.Full o.base → s.core.Full o.d → o.size.toNat < 4 →
    let w := 2 ^ o.size.toNat
    let ea := s.core.s o.base.toNat + o.imm.signExtend 64 * BitVec.ofNat 64 w
    ea.getLsbD 63 = false → ea.toNat % w = 0 → servingLine s.core ea w .update = some l →
    (l.unc = true ∨ uncommitted s.core < 256) → s.OwnScratch s.core.optH 4 →
    let step := physNat s (s.ownPlace s.core.optH) 4
    let mask := byteMask (objOff ea % 64) w
    let l' : Line :=
      { l with
        data := mergeBlock l.data (asHeld s l.phys (placed (objOff ea % 64) (leBytes w (s.core.s o.d.toNat).toNat))) mask
        valid := l.valid ||| mask
        dirty := l.dirty ||| mask
        unc := true
        low := false }
    exec (.stUpd o) s = .next (s.now fun c =>
      if s.pkg.skipFlag = true ∧ s.pkg.skipStep = BitVec.ofNat 32 step then c.stepped
      else Core.stepped { c with lines := setLine c.lines l' }))

/-- R49, R63, R64, R142: a load that L1 serves whole writes `d` with the line's bytes at retirement, and promotes a line that a
.na store put last in the replacement order; one that misses fetches the block into L1, marks `d` empty and leaves its value in
flight. The miss is stated for an unbound object of this package's DRAM, no synonyms, with a free way in its sets of L1 and of the
L2 slice, which holds nothing of the block. R144: a prefetch of a local address, or with the hint .by, does nothing, nor does one
with an illegal size or hint (R93, log 15); one of hint 0 brings the block into L1, here under the conditions of the load's miss;
it marks no register empty and is no commit point. That the value is read when the load issues, and which line a full set loses,
are the model's choices (logs 10, 6). -/
def Obligations.ObjectLoads : Prop :=
  (∀ (s : State) (o : MArgs), s.core.Calm → s.core.Full o.base → s.core.Writable o.d → o.d ≠ 0 → o.size ≠ 7 → o.hint = 0 →
    let w := 2 ^ (o.size.toNat % 4)
    let ea := s.core.s o.base.toNat + o.imm.signExtend 64 * BitVec.ofNat 64 w
    let mask := byteMask (objOff ea % 64) w
    let value (d : BitVec 512) : Word :=
      let n := leValue (blockBytes d (objOff ea % 64) w)
      if 4 ≤ o.size.toNat then BitVec.ofNat 64 n else (BitVec.ofNat (8 * w) n).signExtend 64
    s.core.seqTouches = false → ea.getLsbD 63 = false → ea.toNat % w = 0 →
    (∀ l, servingLine s.core ea w .read = some l → l.valid &&& mask = mask →
      exec (.ld o) s = .next (s.now fun c =>
        Core.result (if l.low then { c with lines := setLine c.lines { l with low := false } } else c) o.d (value l.data))) ∧
    ∀ x s1, findLine s.core (blockAddr ea) = none →
      translate s (clusterOf s.cid) (objId ea) (objOff ea) w .read = .ok (x, s1) →
      x.cls = 0 → x.aliased = false → isLocalDram s x.phys = true → blockOf x.phys ∉ s.ecc →
      (∀ y ∈ (s1.clusterAt (clusterOf s.cid)).l2, y.phys ≠ blockOf x.phys) → l2Others (clusterOf s.cid) x.phys s1 = [] →
      victimFor s.cid (blockAddr ea) s = some none →
      ∃ t, exec (.ld o) s = .next t ∧
        t.core.lines = (emptyLine ea x none false).fill (physBlock s x.phys) :: s.core.lines ∧
        t.core.inflight = s.core.inflight ++ [⟨some (o.d.toNat, value (physBlock s x.phys).data), []⟩] ∧
        t.core.isFull o.d.toNat = false ∧ t.core.pc = s.core.next ∧
        t.mem = s.mem ∧ t.tags = s.tags ∧ t.host = s.host) ∧
  (∀ (s : State) (o : MpArgs), s.core.Calm → s.core.Full o.base →
    let w := 2 ^ (o.size.toNat % 4)
    let ea := s.core.s o.base.toNat + o.imm.signExtend 64 * BitVec.ofNat 64 w
    ((o.size = 7 ∨ o.hint = 3 ∨ ea.getLsbD 63 = true ∨ o.hint = 2 ∨ ea.toNat % w ≠ 0) →
      exec (.prefetch o) s = .next (s.now Core.stepped)) ∧
    ∀ x s1, o.size ≠ 7 → o.hint = 0 → s.core.seqTouches = false → ea.getLsbD 63 = false → ea.toNat % w = 0 → findLine s.core (blockAddr ea) = none →
      translate s (clusterOf s.cid) (objId ea) (objOff ea) w .read = .ok (x, s1) →
      x.cls = 0 → x.aliased = false → isLocalDram s x.phys = true → blockOf x.phys ∉ s.ecc →
      (∀ y ∈ (s1.clusterAt (clusterOf s.cid)).l2, y.phys ≠ blockOf x.phys) → l2Others (clusterOf s.cid) x.phys s1 = [] →
      victimFor s.cid (blockAddr ea) s = some none →
      ∃ t, exec (.prefetch o) s = .next t ∧
        t.core = Core.stepped { s.core with
          lines := (emptyLine ea x none false).fill (physBlock s x.phys) :: s.core.lines } ∧
        t.mem = s.mem ∧ t.tags = s.tags ∧ t.host = s.host)

/-- R148, R151: a returning atomic on the own scratchpad, the core having posted none to it that is not yet performed, commits its
region, is performed at once, writes `d` with the old value, sign-extended, and opens a new region; every other byte and every tag
stays. -/
def Obligations.ReturningAtomics : Prop :=
  ∀ (s : State) (o : AmoArgs), s.core.Calm → s.core.Settled → s.Canonical → s.core.Full o.a → s.core.Full o.b → s.core.Writable o.d →
    let n := if o.w = 1 then 4 else 8
    let w := 8 * n
    let ea := s.core.s o.a.toNat
    s.OwnScratch ea n → Unreserved ea n →
    let p := s.ownPlace ea
    (∀ e ∈ s.core.outbox, e.posts (homeOf p) = false) →
    let old := physNat s p n
    let b := (s.core.s o.b.toNat).toNat % 2 ^ w
    let e := (s.core.s o.d.toNat).toNat % 2 ^ w
    let less := (BitVec.ofNat w old).toInt < (BitVec.ofNat w b).toInt
    let does (i : Instr) (new : Nat) : Prop := ∃ t, exec i s = .next t ∧
      physNat t p n = new ∧ SameBytesBut p n s t ∧ t.others = s.others ∧
      t.core = ((commitRegion s.core).setS o.d.toNat ((BitVec.ofNat w old).signExtend 64)).renewed
    does (.amoAdd o) ((old + b) % 2 ^ w) ∧ does (.amoAnd o) (old &&& b) ∧ does (.amoOr o) (old ||| b) ∧ does (.amoXor o) (old ^^^ b) ∧
    does (.amoMin o) (if less then old else b) ∧ does (.amoMax o) (if less then b else old) ∧
    does (.amoMinu o) (min old b) ∧ does (.amoMaxu o) (max old b) ∧ does (.amoSwap o) b ∧
    does (.amoCas o) (if old = e then b else old)

/-- R151: a posted atomic, checked at issue, takes one outbox entry of the open region, with the fields of its issuer; nothing is
performed yet. R69: a posted atomic that finds 16 entries in the outbox freezes with cause 0x08, takes no entry and writes
nothing; the packet's ADDR is the atomic's address (R75). -/
def Obligations.PostedAtomics : Prop :=
  (∀ (s : State) (o : AmoPArgs), s.core.Calm → s.core.Full o.a → s.core.Full o.b →
    let n := if o.w = 1 then 4 else 8
    let ea := s.core.s o.a.toNat
    s.core.seqTouches = false → s.OwnBytes ea n → Unreserved ea n → s.core.outbox.length < 16 →
    let posts (i : Instr) (op : AmoOp) : Prop := exec i s = .next (s.now fun c => Core.stepped { c with outbox := c.outbox ++
      [{ cargo := .amo op n ea (s.ownPlace ea) (s.core.s o.b.toNat), by_ := issuer s.core s.serving, committed := false, refused := false,
         recheck := false, late := decide (c.rep.state = 2) }] })
    posts (.amoAddP o) .add ∧ posts (.amoAndP o) .and ∧ posts (.amoOrP o) .or ∧ posts (.amoXorP o) .xor ∧ posts (.amoMinP o) .min ∧
    posts (.amoMaxP o) .max ∧ posts (.amoMinuP o) .minu ∧ posts (.amoMaxuP o) .maxu ∧ posts (.amoSwapP o) .swap) ∧
  (∀ (s : State) (o : AmoPArgs), s.core.Full o.a → s.core.Full o.b → s.core.seqTouches = false →
    s.OwnBytes (s.core.s o.a.toNat) (if o.w = 1 then 4 else 8) → Unreserved (s.core.s o.a.toNat) (if o.w = 1 then 4 else 8) →
    s.core.outbox.length = 16 →
    let freezes (i : Instr) : Prop := exec i s = .next (takeFault { cause := 0x08, addr := s.core.s o.a.toNat } s)
    freezes (.amoAddP o) ∧ freezes (.amoAndP o) ∧ freezes (.amoOrP o) ∧ freezes (.amoXorP o) ∧ freezes (.amoMinP o) ∧
    freezes (.amoMaxP o) ∧ freezes (.amoMinuP o) ∧ freezes (.amoMaxuP o) ∧ freezes (.amoSwapP o))

/-- R141: the first check that fails decides: a misaligned address gives cause 0x03 before its space is looked at, a reserved
space 0x04, space 5 from an ordinary core and a byte access to space 6 cause 0x05, with DET1 11 in space 5 (R435); the access has
no effect and the packet's ADDR is the address. -/
def Obligations.AccessFaults : Prop :=
  ∀ (s : State) (o : MArgs), s.core.Full o.base → s.core.Full o.d → s.core.Writable o.d → s.core.seqTouches = false → o.size.toNat < 4 →
    let w := 2 ^ o.size.toNat
    let ea := s.core.s o.base.toNat + o.imm.signExtend 64 * BitVec.ofNat 64 w
    let stops (cause : BitVec 8) (det1 : BitVec 32) : Prop :=
      exec (.ld o) s = .next (takeFault { cause := cause, addr := ea, det1 := det1 } s) ∧
      exec (.st o) s = .next (takeFault { cause := cause, addr := ea, det1 := det1 } s)
    (ea.toNat % w ≠ 0 → stops 0x03 0) ∧
    (ea.toNat % w = 0 → (ea.extractLsb' 60 4 = 8 ∨ ea.extractLsb' 60 4 = 15) → stops 0x04 0) ∧
    (ea.toNat % w = 0 → ea.extractLsb' 60 4 = 13 → s.cid % 16 ≠ 15 → stops 0x05 11) ∧
    (ea.toNat % w = 0 → ea.extractLsb' 60 4 = 14 → w < 4 → stops 0x05 0)

/-! ### Regions, fences, cairns (R67, R68, R306 to R325) -/

/-- R67, R68: COMMIT turns every uncommitted line into a committed one without writing it back, marks every outbox entry
committed, and opens a new region at the following instruction; nothing else changes. R67, R68, R256: a commit point waits, with
nothing committed, while an older committed entry is in the outbox or a sequence runs, and freezes with cause 0x0F where a message
has come back refused. R323: a fence commits, writes back every committed dirty line and, once its older entries are performed,
FENCE.G drops the clean lines of unbound objects and takes its stamp, and FENCE.L empties the instruction cache and takes the
fetch stamp. Until then it waits, committed. -/
def Obligations.CommitAndFences : Prop :=
  (∀ (s : State) (o : RArgs), s.core.Calm → s.core.Settled →
    exec (.commit o) s = .next { s with core := { s.core with
      lines := s.core.lines.map fun l => { l with unc := false }
      outbox := s.core.outbox.map fun e => { e with committed := true }
      lastEcc := none
      pc := s.core.next
      rpc := s.core.next
      phase := s.core.ready
      committed := false
      noAbort := false
      image := []
      trapsDue := none } }) ∧
  (∀ (s : State) (o : RArgs), s.core.committed = false → s.core.trEn = false →
    ((∀ e ∈ s.core.outbox, e.refused = false) →
      ((∃ e ∈ s.core.outbox, e.committed = true) ∨ (s.core.rep.state = 2 ∧ s.core.repAt = none)) →
      exec (.commit o) s = .next { s with held := true }) ∧
    ∀ (e : OutEntry) (rest : List OutEntry) (dst ch : Nat) (bytes : List Byte), s.core.outbox = e :: rest → e.refused = true →
      e.cargo = .msg dst ch bytes → s.core.cvSize = 0 → dst < 2 ^ 12 → ch < 64 →
      ∃ t, exec (.commit o) s = .next t ∧ (s.cid % 768 ≠ 15 → t.core.phase = .frozen ∧ t.core.outbox = s.core.outbox ∧
        t.core.packets = s.core.packets ++ [packetOf { cause := 0x0F, addr := BitVec.ofNat 64 (dst + 4096 * ch), entry := some e } s])) ∧
  (∀ (s : State) (o : RArgs), s.core.Calm → s.core.Settled →
    refusedLine s.cid (fun _ => true) (s.now commitRegion) = none →
    let u := writeBackAll s.cid (fun _ => true) (s.now commitRegion)
    (s.core.outbox = [] → (∀ t ∈ s.net, t.isFrom s.cid = false) →
      exec (.fenceG o) s = .next (u.now fun c =>
        Core.renewed { c.dropUnbound with fenceStamp := u.pkg.cyc, fenced := true }) ∧
      exec (.fenceL o) s = .next (u.now fun c =>
        Core.renewed { c with ilines := [], fetchStamp := u.pkg.cyc, fetchFenced := true })) ∧
    (s.core.outbox ≠ [] → s.core.trEn = false →
      exec (.fenceG o) s = .next { u with held := true, core := { u.core with committed := true, noAbort := false } } ∧
      exec (.fenceL o) s = .next { u with held := true, core := { u.core with committed := true, noAbort := false } }))

/-- R310, R311: an acquire of a free cairn that the core has no slot for, a slot being free: the home records the hold, exclusive
or one shared, the slot names the cairn with the home's HCNT as its epoch, and TRYACQ.X writes 0. While another core holds it
exclusively, TRYACQ.X writes 1 and the home stays, and ACQ.X and ACQ.S wait. That the search for a slot comes after the commit is
the model's reading (log 27). -/
def Obligations.Acquire : Prop :=
  ∀ (s : State) (o : RArgs) (x : Xlat) (s1 : State) (n : Nat), s.core.Calm → s.core.Settled → s.Canonical → s.core.Full o.a → s.core.Writable o.d →
    let a := s.core.s o.a.toNat
    a.toNat % 64 = 0 → a.getLsbD 63 = false →
    translate s (clusterOf s.cid) (objId a) (objOff a) 64 .atomic = .ok (x, s1) → x.cls = 2 →
    kindOf x.phys = 0 → x.phys % 64 = 0 → reachable s x.phys = true → blockOf x.phys ∉ s.ecc → withdrawing s s.cid = false →
    (∀ i < 8, (s.core.slot i).valid = true → (s.core.slot i).cairn ≠ a) →
    n < 8 → (s.core.slot n).valid = false → (∀ i < n, (s.core.slot i).valid = true) →
    let takes (i : Instr) (h : Hold) (mode holder count : Nat) : Prop := ∃ t, exec i s = .next t ∧
      cairnMode t x.phys = mode ∧ cairnHolder t x.phys = holder ∧ cairnCount t x.phys = count ∧
      (t.core.slot n).valid = true ∧ (t.core.slot n).cairn = a ∧ (t.core.slot n).hold = h ∧
      (t.core.slot n).epoch = cairnHcnt s x.phys ∧ (t.core.slot n).loc = false ∧
      t.core.pc = s.core.next ∧ t.core.rpc = s.core.next
    let g := globalNumber s s.cid % 2 ^ 22
    (cairnMode s x.phys = 0 → cairnWcnt s x.phys = 0 →
      takes (.acqX o) .exclusive 2 g 0 ∧ takes (.acqS o) .shared 3 0 1 ∧ takes (.tryacqX o) .exclusive 2 g 0 ∧
      ∀ t, exec (.tryacqX o) s = .next t → o.d ≠ 0 → t.core.s o.d.toNat = 0) ∧
    (cairnMode s x.phys = 2 →
      (∃ t, exec (.tryacqX o) s = .next t ∧ (o.d ≠ 0 → t.core.s o.d.toNat = 1) ∧ t.mem = s.mem ∧ t.core.pc = s.core.next ∧
        t.core.rpc = s.core.next ∧ (t.core.slot n).hold = .none) ∧
      (∃ t, exec (.acqX o) s = .next t ∧ t.core.phase = .wait (.acquire a true false o.d.toNat n)) ∧
      ∃ t, exec (.acqS o) s = .next t ∧ t.core.phase = .wait (.acquire a false false o.d.toNat n))

/-- R308, R310, R312, R322: holds that stay within their core. An acquire of a cairn lent back to its last releaser takes a local
hold without telling the home; REL of a local hold that nobody waits for ends it and counts it in LREL; BIND sets STICKY; UNBIND
of a slot without hold, lines or lent cairn frees it, and of a cairn without a slot does nothing. Memory stays in each. R312: REL
of an exclusive hold told to the home, nobody waiting: RCNT rises by 1 and the local releases, LR is this core, MODE becomes 1,
and the slot is lent (RET); no line changes but that its region has committed. -/
def Obligations.HoldsOfACore : Prop :=
  (∀ (s : State) (o : RArgs) (x : Xlat) (s1 : State) (n : Nat), s.core.Calm → s.core.Settled → s.core.Full o.a →
    let a := s.core.s o.a.toNat
    let y := s.core.slot n
    a.toNat % 64 = 0 → a.getLsbD 63 = false →
    translate s (clusterOf s.cid) (objId a) (objOff a) 64 .atomic = .ok (x, s1) → x.cls = 2 →
    reachable s x.phys = true → blockOf x.phys ∉ s.ecc →
    (slotNamed s.core a = none → exec (.unbind o) s = .next (s1.now Core.stepped)) ∧
    (slotNamed s.core a = some n →
      (y.hold = .none → y.ret = true → y.wait = false →
        exec (.acqX o) s = .next (s1.now fun c => ((commitRegion c).putSlot n { y with hold := .exclusive, loc := true }).renewed) ∧
        exec (.acqS o) s = .next (s1.now fun c => ((commitRegion c).putSlot n { y with hold := .shared, loc := true }).renewed)) ∧
      (y.hold ≠ .none → y.loc = true → y.wait = false →
        exec (.rel o) s = .next (s1.now fun c => ((commitRegion c).putSlot n { y with hold := .none, lrel := y.lrel + 1 }).renewed)) ∧
      exec (.bind o) s = .next (s1.now fun c => (c.putSlot n { y with sticky := true }).stepped) ∧
      (y.hold = .none → y.ret = false → (∀ l ∈ s.core.lines, l.slot ≠ some n) →
        exec (.unbind o) s = .next (s1.now fun c => (c.putSlot n Slot.free).stepped)))) ∧
  (∀ (s : State) (o : RArgs) (x : Xlat) (s1 : State) (n : Nat), s.core.Calm → s.core.Settled → s.Canonical → s.core.Full o.a →
    let a := s.core.s o.a.toNat
    let y := s.core.slot n
    a.toNat % 64 = 0 → a.getLsbD 63 = false →
    translate s (clusterOf s.cid) (objId a) (objOff a) 64 .atomic = .ok (x, s1) → x.cls = 2 →
    reachable s x.phys = true → blockOf x.phys ∉ s.ecc → kindOf x.phys = 0 → x.phys % 64 = 0 →
    slotNamed s.core a = some n → y.hold = .exclusive → y.loc = false → y.wait = false → s.waiters = [] → s1.core = s.core →
    cairnMode s x.phys = 2 →
    ∃ t, exec (.rel o) s = .next t ∧ cairnMode t x.phys = 1 ∧ cairnLR t x.phys = globalNumber s s.cid % 2 ^ 22 ∧
      physNat t (x.phys + 16) 8 = (physNat s (x.phys + 16) 8 + 1 + y.lrel.toNat) % 2 ^ 64 ∧
      t.core.slot n = { y with hold := .none, lrel := 0, ret := true } ∧ t.core.lines = (commitRegion s.core).lines ∧
      t.core.pc = s.core.next ∧ t.core.rpc = s.core.next)

/-- R156, R324, R325: MON arms the core's monitor on a block, here of the own scratchpad; MWAIT returns at once where it is
triggered or none is armed, and waits else; SLEEP and WAITT return at once where the time has come and no operation is overdue,
and wait else; WAITT on an overdue copy freezes with cause 0x09 where its t bit is 1. -/
def Obligations.Waits : Prop :=
  ∀ (s : State), s.core.Calm → s.core.cvPos = 0 → s.core.ydl = 0 →
    (∀ o : RArgs, s.core.Full o.a → s.core.seqTouches = false → s.OwnBytes (s.core.s o.a.toNat) 1 → (s.monitors.length < 64) →
      exec (.mon o) s = .next { s with
        core := s.core.stepped
        monitors := s.monitors.filter (·.core ≠ s.cid) ++ [⟨s.cid, blockOf (s.ownPlace (s.core.s o.a.toNat)), false, false⟩] }) ∧
    (∀ o : RArgs, (∀ m ∈ s.monitors, m.core = s.cid → m.hit = true) →
      exec (.mwait o) s = .next { s with core := s.core.stepped, monitors := s.monitors.filter (·.core ≠ s.cid) }) ∧
    (∀ o : RArgs, (∀ m ∈ s.monitors, m.core = s.cid → m.hit = false) → (∃ m ∈ s.monitors, m.core = s.cid) →
      exec (.mwait o) s = .next (s.now fun c => { c with phase := .wait .mwait })) ∧
    (∀ o : SArgs, s.core.Full o.d →
      exec (.sleep o) s = .next (s.now fun c =>
        if (c.s o.d.toNat).toNat ≤ s.pkg.cyc.toNat then c.stepped else { c with phase := .wait (.sleep (c.s o.d.toNat)) })) ∧
    ∀ o : RArgs, s.core.Full o.a →
      let t := s.core.s o.a.toNat
      (s.pkg.cyc.toNat < t.toNat →
        exec (.waitt o) s = .next (s.now fun c => { c with phase := .wait (.waitt t (o.ta = 1) 0) })) ∧
      (t.toNat ≤ s.pkg.cyc.toNat → (∀ q ∈ s.core.queues.toList, ∀ p ∈ q.ops, t.toNat < p.promise.toNat) →
        exec (.waitt o) s = .next (s.now Core.stepped)) ∧
      (t.toNat ≤ s.pkg.cyc.toNat → dueQueues s.core t ≠ 0 → o.ta = 1 →
        exec (.waitt o) s = .next (takeFault { cause := 0x09, det1 := (dueQueues s.core t).setWidth 32 } s))

/-! ### Tasks, messages, caravans, crests (R56 to R62, R255 to R271, R339 to R345) -/

/-- R259, R341: a run of bytes of the own scratchpad reads as its bytes, lowest first, whichever way it is checked, reaches no
uncached object, and waits for nothing once its turn has come. R66, R255, R260, R261, R341, R345: FORK, SPAWN, SEND, HOLD, READY
and DEC each take one outbox entry of the open region, its bytes read at issue; nothing is pushed, sent or decremented yet. R260,
R312: SEND.A commits, releases the cairn, here a local hold, and only then takes its outbox entry, which is committed already. -/
def Obligations.OutboxEntries : Prop :=
  (∀ (s : State) (a : Word) (n : Nat), 0 < n → n ≤ 64 → s.OwnScratch a 1 → (a.extractLsb' 0 60).toNat + n ≤ 2 ^ 20 →
    blockOf (s.ownPlace a + n - 1) ∉ s.ecc →
    readPieces a n s = .ok ((physBytes s (s.ownPlace a) n, false), s) ∧
    readImageAt a n s = .ok ((physBytes s (s.ownPlace a) n, false), s) ∧ orderRun a n s = .ok ((), s)) ∧
  (∀ (s : State) (o : RArgs), s.core.Calm → s.core.Full o.a → s.core.Full o.b → s.core.outbox.length < 16 →
    let a := s.core.s o.a.toNat
    let b := s.core.s o.b.toNat
    let posts (i : Instr) (u : State) (k : Cargo) : Prop := exec i s = .next (u.now fun c => Core.stepped { c with outbox := c.outbox ++
      [{ cargo := k, by_ := issuer c s.serving, committed := false, refused := false, recheck := false, late := decide (c.rep.state = 2) }] })
    (∀ bytes v u, a.toNat % 8 = 0 → readImageAt a 32 s = .ok ((bytes, false), v) → orderRun a 32 v = .ok ((), u) →
      v.core = s.core → v.cid = s.cid → v.others = s.others → u.core = s.core → u.cid = s.cid →
      posts (.fork o) u (.push s.cid (recordOf bytes) ⟨0, [], none, 0, none⟩) ∧
      (b.toNat % 4096 < 0xC00 → (s.coreAt (b.toNat % 4096)).fencedOff = false →
        posts (.spawn o) u (.push (b.toNat % 4096) (recordOf bytes) ⟨if b.toNat % 4096 = s.cid then 0 else 1, [], none, 0, none⟩))) ∧
    (∀ bytes v u, 1 ≤ mwLen b → mwLen b ≤ 64 → (mwDst b = 0xFFF ∨ (mwDst b < 0xC00 ∧ (s.coreAt (mwDst b)).fencedOff = false)) →
      readPieces a (mwLen b) s = .ok ((bytes, false), v) → orderRun a (mwLen b) v = .ok ((), u) → v.core = s.core → u.core = s.core →
      posts (.send o) u (.msg (mwDst b) (mwCh b) bytes)) ∧
    (mwDst a < 0xC00 → (s.coreAt (mwDst a)).fencedOff = false →
      posts (.hold o) s (.hold (mwDst a) (mwCh a) (b.getLsbD 0)) ∧ posts (.ready o) s (.ready (mwDst a) (mwCh a) (b.getLsbD 0))) ∧
    (a.toNat % 64 = 0 → a.extractLsb' 20 12 = 0 → a.extractLsb' 44 20 = 0 → (a.extractLsb' 32 12).toNat < 0xC00 →
      (a.extractLsb' 0 20).toNat < 0xD8000 → (s.coreAt (a.extractLsb' 32 12).toNat).fencedOff = false →
      (o.b = 0 ∨ 0 < b.toInt) →
      posts (.dec o) s (.dec a (scratch s (a.extractLsb' 32 12).toNat (a.extractLsb' 0 20).toNat) (if o.b = 0 then 1 else b)))) ∧
  (∀ (s : State) (o : RArgs) (x : Xlat) (s1 : State) (n : Nat) (bytes : List Byte), s.core.Calm → s.core.Settled →
    s.core.Full o.a → s.core.Full o.b → s.core.Full o.d → s.core.outbox.length < 16 →
    let b := s.core.s o.b.toNat
    let k := s.core.s o.d.toNat
    let y := s.core.slot n
    1 ≤ mwLen b → mwLen b ≤ 64 → mwDst b < 0xC00 → (s.coreAt (mwDst b)).fencedOff = false →
    readPieces (s.core.s o.a.toNat) (mwLen b) s = .ok ((bytes, false), s) →
    k.toNat % 64 = 0 → k.getLsbD 63 = false →
    translate s (clusterOf s.cid) (objId k) (objOff k) 64 .atomic = .ok (x, s1) → x.cls = 2 →
    reachable s x.phys = true → blockOf x.phys ∉ s.ecc →
    orderRun (s.core.s o.a.toNat) (mwLen b) s1 = .ok ((), s1) →
    slotNamed s.core k = some n → y.hold ≠ .none → y.loc = true → y.wait = false →
    exec (.sendA o) s = .next (s1.now fun c =>
      let d := (commitRegion c).putSlot n { y with hold := .none, lrel := y.lrel + 1 }
      Core.renewed { d with outbox := d.outbox ++
        [{ cargo := .msgAcq (mwDst b) (mwCh b) bytes k, by_ := issuer d s.serving, committed := true, refused := false, recheck := false, late := false }] }))

/-- R56, R62, R342: DONE of an activation in no caravan, every register full and no cairn held, commits, frees the activation's
message slot if it has one, disarms the monitor and reaches an activation boundary; it waits, committed, while a register is
empty. R59, R339, R343: YIELD of an activation of core 0 to 12 of a cluster, all registers full and no cairn held, commits and
pushes its continuation, with origin 5, onto the bottom of the core's own deque, which has a place that no push under way holds
(log 44), and reaches a boundary. -/
def Obligations.DoneAndYield : Prop :=
  (∀ (s : State) (o : RArgs), s.core.Calm → s.core.Settled → s.Canonical → s.core.cvSize = 0 → s.core.trEn = false →
    ((s.core.sfull ≠ BitVec.allOnes 32 ∨ s.core.vfull ≠ BitVec.allOnes 32) →
      exec (.done o) s = .next { s with
        held := true
        core := { (commitRegion s.core).leaveCaravan with committed := true, noAbort := false } }) ∧
    (s.core.sfull = BitVec.allOnes 32 → s.core.vfull = BitVec.allOnes 32 → (∀ n < 8, (s.core.slot n).hold = .none) →
      let ended (c : Core) : Core :=
        { (commitRegion c).leaveCaravan.settled with
          pc := c.next, rpc := c.next, phase := .boundary, act := none, ydl := 0, lastEcc := none, closing := none, spared := false, orphan := false }
      ((∀ a, s.core.act = some a → a.msg = none) →
        exec (.done o) s = .next { s.now ended with monitors := s.monitors.filter (·.core ≠ s.cid) }) ∧
      ∀ a m, s.core.act = some a → a.msg = some m → m.core < 3072 → m.ch < 64 → m.slot < 4 →
        ∃ t, exec (.done o) s = .next t ∧ t.core.phase = .boundary ∧ t.core.act = none ∧ t.core.pc = s.core.next ∧
          chUsed (chWord t m.core m.ch) = chUsed (chWord s m.core m.ch) &&& ~~~ (1#4 <<< m.slot) ∧
          chPend (chWord t m.core m.ch) = chPend (chWord s m.core m.ch) ∧ chHead (chWord t m.core m.ch) = chHead (chWord s m.core m.ch))) ∧
  (∀ (s : State) (o : RArgs) (bytes : List Byte), s.core.Calm → s.core.Settled → s.Canonical → s.core.cvSize = 0 → s.core.cvPos = 0 → s.core.Full o.a →
    s.core.image = [] → (s.core.s o.a.toNat).toNat % 8 = 0 → readImageAt (s.core.s o.a.toNat) 32 s = .ok ((bytes, false), s) →
    orderRun (s.core.s o.a.toNat) 32 s = .ok ((), s) →
    s.cid < 3072 → s.cid % 16 < 13 → s.core.vacReq = false → dequeTakes s s.cid = true →
    s.core.sfull = BitVec.allOnes 32 → s.core.vfull = BitVec.allOnes 32 → (∀ n < 8, (s.core.slot n).hold = .none) →
    (∀ a, s.core.act = some a → a.msg = none) →
    ∃ t, exec (.yield o) s = .next t ∧ t.core.phase = .boundary ∧ t.core.act = none ∧
      t.core.dqBot = s.core.dqBot + 1 ∧ t.core.dqTop = s.core.dqTop ∧
      dqRecord t s.cid s.core.dqBot = recordOf bytes ∧ (dqCarried t.core s.core.dqBot).origin = 5 ∧
      t.core.lines = (commitRegion s.core).lines)

/-- R58, R262: CHBIND writes EPC, with bit 0 zero, and bits 6:0 (V, LAT, HOLD, READY, DEPTH, AOA) of an entry of its own channel
table from the image; PEND, HEAD and USED (bits 16:8) stay, and so do the other entries. It is no commit point. -/
def Obligations.Chbind : Prop :=
  ∀ (s : State) (o : RArgs) (bytes : List Byte), s.core.Calm → s.Canonical → s.core.Full o.a → s.core.Full o.b →
    let ch := (s.core.s o.b.toNat).toNat % 64
    let image : Word := BitVec.ofNat 64 (leValue (bytes.drop 8))
    (s.core.s o.a.toNat).toNat % 16 = 0 → readImageAt (s.core.s o.a.toNat) 16 s = .ok ((bytes, false), s) →
    orderRun (s.core.s o.a.toNat) 16 s = .ok ((), s) →
    s.cid < 3072 → (s.cid % 16 ≠ 15 ∨ ch ≠ 63) →
    ∃ u, exec (.chbind o) s = .next u ∧ u.core.pc = s.core.next ∧ u.core.rpc = s.core.rpc ∧ u.core.lines = s.core.lines ∧ u.core.outbox = s.core.outbox ∧
    chEpc u s.cid ch = BitVec.ofNat 64 (leValue (bytes.take 8)) &&& ~~~ 1#64 ∧
    (chWord u s.cid ch).extractLsb' 0 7 = image.extractLsb' 0 7 ∧
    (chWord u s.cid ch).extractLsb' 8 9 = (chWord s s.cid ch).extractLsb' 8 9 ∧
    ∀ c < 64, c ≠ ch → chEpc u s.cid c = chEpc s s.cid c ∧ chWord u s.cid c = chWord s s.cid c

/-- R264, R266: GANG commits and writes its status: 1 for a size that is not 2, 4 or 8, 2 for a core whose number is no multiple
of it, 4 where core 15 would be a member, 5 where a member is not idle, and 0 with the caravan formed, each follower at the
leader's scalar registers and next instruction. DISBAND outside a caravan only commits. Which members count as idle is the model's
reading (log 20). -/
def Obligations.Caravans : Prop :=
  (∀ (s : State) (o : RArgs), s.core.Calm → s.core.Settled → s.core.cvSize = 0 → s.core.cvPos = 0 →
    exec (.disband o) s = .next (s.now fun c => (commitRegion c).leaveCaravan.renewed)) ∧
  ∀ (s : State) (o : RArgs), s.core.Calm → s.core.Settled → s.core.cvSize = 0 → s.core.cvPos = 0 → s.core.Writable o.d →
    s.core.sfull = BitVec.allOnes 32 →
    let n := (s.core.s o.a.toNat).toNat
    let k := s.cid % 16
    let legal := n = 2 ∨ n = 4 ∨ n = 8
    let status (v : Word) : Prop := exec (.gang o) s = .next (s.now fun c => ((commitRegion c).setS o.d.toNat v).renewed)
    let idle (m : Nat) : Prop := (s.coreAt m).canFollow = true
    (¬ legal → status 1) ∧
    (legal → k % n ≠ 0 → status 2) ∧
    (legal → k % n = 0 → 15 < k + n → status 4) ∧
    (legal → k % n = 0 → k + n ≤ 15 → (∃ p, 0 < p ∧ p < n ∧ ¬ idle (s.cid + p)) → status 5) ∧
    (legal → k % n = 0 → k + n ≤ 15 → (∀ p, 0 < p → p < n → idle (s.cid + p)) →
      ∃ t, exec (.gang o) s = .next t ∧ t.cid = s.cid ∧
        t.core = { (((commitRegion s.core).setS o.d.toNat 0).renewed) with cvPos := 0, cvSize := n } ∧
        ∀ p, 0 < p → p < n → (t.coreAt (s.cid + p)).cvPos = p ∧ (t.coreAt (s.cid + p)).cvSize = n ∧
          (t.coreAt (s.cid + p)).phase = .follower ∧ (t.coreAt (s.cid + p)).pc = s.core.next ∧ (t.coreAt (s.cid + p)).rpc = s.core.next ∧ (t.coreAt (s.cid + p)).sregs = t.core.sregs ∧
          (t.coreAt (s.cid + p)).fcsr = s.core.fcsr ∧ (t.coreAt (s.cid + p)).vregs = (s.coreAt (s.cid + p)).vregs)

/-- R269, R401: the contribution that completes a round releases it: the context is idle again, the core's own CRSC takes the
scale, NF and the context, the other participants are sent theirs, and where the word asks for it and a NaN or an infinity was
seen the package's skip flag is set. Any other contribution goes to its context and its instruction waits. A word whose fields are
out of range faults with cause 0x04 and does not commit. -/
def Obligations.CrestBarrier : Prop :=
  ∀ (s : State) (o : RArgs) (bar : Bool), s.core.Calm → s.core.Settled → s.core.Full o.a →
    let w := s.core.s o.a.toNat
    let i : Instr := if bar then .bar o else .crest o
    let scope := cxScope w
    let ctx := cxCtx w
    let x := (crestAt s s.cid scope ctx).contribute s.cid w (contribution s.core bar)
    (cxLegal w = false → exec i s = .next (takeFault { cause := 0x04, addr := w } s)) ∧
    (cxLegal w = true → x.complete = false →
      exec i s = .next { s with
        core := { commitRegion s.core with phase := .wait (.crest scope ctx) }
        net := s.net ++ [.crest s.cid scope ctx w (contribution s.core bar).1 (contribution s.core bar).2.1 (contribution s.core bar).2.2] }) ∧
    (cxLegal w = true → x.complete = true →
      ∃ t, exec i s = .next t ∧
        t.core = { (commitRegion s.core).renewed with crscScale := x.scale, crscNf := x.nf, crscCtx := w.extractLsb' 0 4, crscValid := true } ∧
        t.net = s.net ++ (x.parties.filter (· ≠ s.cid)).map (fun p => .crsc p scope ctx x.scale x.nf) ∧
        crestAt t s.cid scope ctx = Crest.idle ∧
        (x.nf = true → cxSkip x.param = true → t.pkg.skipFlag = true ∧ t.pkg.skipStep = cxStep x.param) ∧
        (x.nf = false ∨ cxSkip x.param = false → t.pkg.skipFlag = s.pkg.skipFlag ∧ t.pkg.skipStep = s.pkg.skipStep) ∧
        t.mem = s.mem)

/-! ### Control registers, traps and faults (R53 to R55, R73 to R75, R153 to R157, R433) -/

/-- R54, R154: CSRR writes `d` with the register's value; CSRW, CSRS and CSRC write its RW bits under the mask of R54 and keep the
others, after a commit for every register but FCSR. Unlisted numbers, writes of RO registers and reads of FLCLR are illegal. R36,
R33, R53, R55: what a control register holds and what a write of one does, for registers of each kind. -/
def Obligations.ControlRegisters : Prop :=
  (∀ (s : State) (o : SArgs), s.core.Calm → s.core.Settled → s.core.Writable o.d →
    let x := o.x.toNat
    let old := csrRead s s.cid x
    let v := s.core.s o.d.toNat &&& csrMask x
    let kept := old &&& ~~~ csrMask x
    let illegal (i : Instr) : Prop := exec i s = .next (takeFault { cause := 0x01 } s)
    let gives (i : Instr) (new : Word) : Prop := exec i s = .next
      (if x = 0x008 then (csrWrite s.cid x new s).now Core.stepped
       else (csrWrite s.cid x new (s.now commitRegion)).now Core.renewed)
    (csrExists x = true → csrWriteOnly x = false → exec (.csrr o) s = .next (s.now (·.result o.d old))) ∧
    (csrExists x = false → illegal (.csrr o) ∧ illegal (.csrw o) ∧ illegal (.csrs o) ∧ illegal (.csrc o)) ∧
    (csrReadOnly x = true → illegal (.csrw o) ∧ illegal (.csrs o) ∧ illegal (.csrc o)) ∧
    (csrWriteOnly x = true → illegal (.csrr o) ∧ illegal (.csrs o) ∧ illegal (.csrc o)) ∧
    (csrExists x = true → csrReadOnly x = false → x ∉ [0x018, 0x019, 0x070] →
      gives (.csrw o) (kept ||| v) ∧
      (csrWriteOnly x = false → gives (.csrs o) (old ||| v) ∧ gives (.csrc o) (old &&& ~~~ v)))) ∧
  (∀ (s : State) (v : Word),
    csrRead s s.cid 0x000 = s.pkg.cyc ∧ csrRead s s.cid 0x001 = BitVec.ofNat 64 s.cid ∧
    csrRead s s.cid 0x008 = s.core.fcsr.setWidth 64 ∧ csrRead s s.cid 0x009 = s.core.seed ∧ csrRead s s.cid 0x018 = s.core.rpc ∧
    csrRead s s.cid 0x020 = s.core.ydl ∧ csrRead s s.cid 0x010 = s.core.creg.setWidth 64 ∧
    ((csrRead s s.cid 0x048).extractLsb' 0 32 = s.pkg.skipStep ∧ (csrRead s s.cid 0x048).getLsbD 32 = s.pkg.skipFlag) ∧
    csrWrite s.cid 0x009 v s = s.now (fun c => { c with seed := v }) ∧
    csrWrite s.cid 0x008 v s = s.now (fun c => { c with fcsr := if 6 ≤ v.toNat % 8 then c.fcsr else v.extractLsb' 0 3 }) ∧
    csrWrite s.cid 0x060 v s = s.now (fun c => { c with optH := v }) ∧
    csrWrite s.cid 0x010 v s = s.now (fun c => { c with creg := v.extractLsb' 0 34 }) ∧
    csrWrite s.cid 0x004 v s = s.now (fun c => { c with sguard := v.extractLsb' 0 8 }) ∧
    csrWrite s.cid 0x00A v s = s.now (fun c => { c with flags :=
      { nv := if v.getLsbD 0 then 0 else c.flags.nv, dz := if v.getLsbD 1 then 0 else c.flags.dz, of := if v.getLsbD 2 then 0 else c.flags.of,
        uf := if v.getLsbD 3 then 0 else c.flags.uf, nx := if v.getLsbD 4 then 0 else c.flags.nx } }))

/-- R73, R74, R75, R155: TRAP, BRK and HALT retire and then freeze the core, the packet's PC being the following instruction, with
cause 0x0B, 0x0A and 0x0B and DET1 the code, 0 and 0xFFFF_FFFF; none commits, and RPC is kept. TMARK without a trace only retires.
R433: an instruction that retires at the address of an enabled hardware breakpoint freezes its core with cause 0x0A, the packet's
PC being the next instruction to execute and DET1 1 plus the breakpoint's number: stated for ADD, ADDI, JAL, BEQ, FABS of type F32
and COMMIT. R73, R74: taking a fault, on a core in no caravan that is no mesa command core and traces nothing: the core is frozen,
one packet more waits in it with the fields of R74, the sequencer stops, and registers, PC, RPC, lines, outbox and memory stay;
the region stays open. That TRAP, BRK and HALT freeze with their own cause where a hardware breakpoint stands at them too is the
model's reading (log 22). -/
def Obligations.TrapsAndFaults : Prop :=
  (∀ (s : State) (o : SArgs), s.core.repAt = none →
    let at_ := s.now fun c => { c with pc := c.next }
    exec (.trap o) s = .next (takeFault { cause := 0x0B, det1 := o.x.setWidth 32 } at_) ∧
    exec (.brk o) s = .next (takeFault { cause := 0x0A, det1 := 0 } at_) ∧
    exec (.halt o) s = .next (takeFault { cause := 0x0B, det1 := 0xFFFF_FFFF } at_) ∧
    (s.core.Calm → s.core.Full o.d → s.core.trEn = false → exec (.tmark o) s = .next (s.now Core.stepped))) ∧
  (∀ (s : State) (n : Nat), s.core.repAt = none → breakHit s.core s.serving s.core.pc = some n →
    let then_ (f : Core → Core) : Host.Outcome State Fault Refusal :=
      .next (takeFault { cause := 0x0A, det1 := BitVec.ofNat 32 (1 + n) } (s.now f))
    (∀ o : RArgs, s.core.Full o.a → s.core.Full o.b → s.core.Writable o.d →
      exec (.add o) s = then_ (·.result o.d (s.core.s o.a.toNat + s.core.s o.b.toNat))) ∧
    (∀ o : IArgs, s.core.Full o.a → s.core.Writable o.d →
      exec (.addi o) s = then_ (·.result o.d (s.core.s o.a.toNat + o.imm.signExtend 64))) ∧
    (∀ o : UArgs, s.core.Writable o.d →
      exec (.jal o) s = then_ fun c => (c.setS o.d.toNat (c.pc + 4)).goTo (c.pc + 2 * o.imm.signExtend 64)) ∧
    (∀ o : BArgs, s.core.cvPos = 0 → s.core.Full o.a → s.core.Full o.b →
      exec (.beq o) s = then_ fun c =>
        if c.s o.a.toNat = c.s o.b.toNat then c.goTo (c.pc + 2 * o.disp.signExtend 64) else c.stepped) ∧
    (∀ o : VArgs, s.core.rep.state ≠ 2 → s.core.VFull 0 o.va → s.core.VFull 0 o.vd → o.ty = 0 →
      exec (.fabs o) s = then_ (·.delivered 0 o.vd ((s.core.lanes 0 o.va).map (lift1 0 fun x => (x % 2 ^ 31, noFlags))))) ∧
    ∀ o : RArgs, s.core.Settled → exec (.commit o) s = then_ fun c => (commitRegion c).renewed) ∧
  (∀ (s : State) (cause : BitVec 8) (addr : Word) (det1 : BitVec 32), s.core.repAt = none → s.core.cvSize = 0 → s.core.cvPos = 0 → s.cid % 768 ≠ 15 →
    s.core.trEn = false → s.core.trBuf = [] →
    let t := takeFault { cause := cause, addr := addr, det1 := det1 } s
    t = { s with core := t.core } ∧ t.core.phase = .frozen ∧ t.core.pc = s.core.pc ∧ t.core.rpc = s.core.rpc ∧
    t.core.sregs = s.core.sregs ∧ t.core.sfull = s.core.sfull ∧ t.core.vregs = s.core.vregs ∧ t.core.vfull = s.core.vfull ∧
    t.core.masks = s.core.masks ∧ t.core.flags = s.core.flags ∧ t.core.tiles = s.core.tiles ∧
    t.core.lines = s.core.lines ∧ t.core.outbox = s.core.outbox ∧ t.core.act = s.core.act ∧
    (s.core.rep.state = 2 → t.core.rep.state = 3) ∧
    t.core.packets = s.core.packets ++
      [{ core := s.cid, cause := cause, flags := 0x01, insn := s.core.insn, pc := s.core.pc,
         rpc := if s.core.act = none ∧ s.core.orphan = false then 0 else s.core.rpc, addr := addr,
         tag := (s.core.act.map (·.tag)).getD 0, member := 0, det1 := det1, epc := (s.core.act.map (·.epc)).getD 0,
         cyc := s.pkg.cyc, det2 := 0 }])

/-! ### The vector unit (R13, R32, R36, R86 to R89, R158 to R191) -/

/-- R36, R86, R160: what delivering lanes does, for a type of one register: an active lane takes the new value, an inactive one 0
where the prefix says zero and its old value else; flags are set in active lanes only; no other register, tile, mask or control
register changes. -/
def Obligations.VectorFrame : Prop :=
  ∀ (c : Core) (ty : Nat) (vd : BitVec 5) (rs : List (Nat × Fl)), isPairTy ty = false → c.repAt = none → rs.length = 128 →
    (∀ r ∈ rs, r.1 < 2 ^ 32) →
    let d := c.delivered ty vd rs
    (∀ i < 128, (VReg.nats (d.v vd.toNat)).getD i 0 =
      if (activeMask c).getLsbD i then (rs.getD i (0, noFlags)).1
      else if (prefixOf c).zero then 0 else (VReg.nats (c.v vd.toNat)).getD i 0) ∧
    (∀ k < 32, k ≠ vd.toNat → d.v k = c.v k) ∧
    (∀ i < 128, d.flags.nv.getLsbD i = (c.flags.nv.getLsbD i || ((activeMask c).getLsbD i && (rs.getD i (0, noFlags)).2.nv)) ∧
      d.flags.dz.getLsbD i = (c.flags.dz.getLsbD i || ((activeMask c).getLsbD i && (rs.getD i (0, noFlags)).2.dz)) ∧
      d.flags.of.getLsbD i = (c.flags.of.getLsbD i || ((activeMask c).getLsbD i && (rs.getD i (0, noFlags)).2.of)) ∧
      d.flags.uf.getLsbD i = (c.flags.uf.getLsbD i || ((activeMask c).getLsbD i && (rs.getD i (0, noFlags)).2.uf)) ∧
      d.flags.nx.getLsbD i = (c.flags.nx.getLsbD i || ((activeMask c).getLsbD i && (rs.getD i (0, noFlags)).2.nx))) ∧
    d = { c.settled with vregs := d.vregs, flags := d.flags, pc := c.next, phase := c.ready }

/-- R32: an integer quotient m / 2^k rounded in each mode, and exact where 2^k divides m. To nearest: no integer is closer, and on
a tie the even one (RNE) or the greater (RNA, of the magnitude); toward zero, down and up: the neighbour on that side. -/
def Obligations.RoundingModes : Prop :=
  ∀ (neg : Bool) (m k : Nat),
    let q (rm : Rm) : Nat := (roundShift rm neg m k).1
    (∀ rm, (roundShift rm neg m k).2 = true ↔ m % 2 ^ k ≠ 0) ∧
    (∀ rm, m % 2 ^ k = 0 → q rm = m / 2 ^ k) ∧
    q .rtz = m / 2 ^ k ∧
    (q .rne * 2 ^ k ≤ m + 2 ^ k / 2 ∧ m ≤ q .rne * 2 ^ k + 2 ^ k / 2 ∧ (2 * (m % 2 ^ k) = 2 ^ k → q .rne % 2 = 0)) ∧
    (0 < k → q .rna = (2 * m + 2 ^ k) / 2 ^ (k + 1)) ∧
    q .rdn = (if neg then (m + 2 ^ k - 1) / 2 ^ k else m / 2 ^ k) ∧
    q .rup = (if neg then m / 2 ^ k else (m + 2 ^ k - 1) / 2 ^ k)

/-- R163, R164, R165: floating arithmetic, lane by lane, in the type's format and the mode in force: sum, difference, product,
quotient, square root, fused forms once rounded, minimumNumber and maximumNumber, sign operations, rounding to an integral value,
special functions. An F32 special function is a free value within the bound of R165 (log 13); some flags of corners are the
model's reading (log 17). -/
def Obligations.VectorFloat : Prop :=
  ∀ (s : State) (o : VArgs), s.core.VectorCalm → s.core.VFull o.ty.toNat o.va → s.core.VFull o.ty.toNat o.vd →
    let ty := o.ty.toNat
    let f := vfmt ty
    let rm := arithMode s.core
    let a := s.core.lanes ty o.va
    let one (i : Instr) (g : Nat → Nat × Fl) : Prop := exec i s = .next (s.now (·.delivered ty o.vd (a.map (lift1 ty g))))
    (one (.fsqrt o) (f.sqrt rm) ∧ one (.frnd o) (f.toIntegral rm) ∧
      one (.fabs o) (fun x => (x % f.signBit, noFlags)) ∧
      one (.fneg o) (fun x => (x % f.signBit + (if f.isNeg x then 0 else f.signBit), noFlags)) ∧
      one (.frcp o) (Sfu.eval .rcp f freeSfu) ∧ one (.frsq o) (Sfu.eval .rsq f freeSfu) ∧ one (.fex2 o) (Sfu.eval .ex2 f freeSfu) ∧
      one (.flg2 o) (Sfu.eval .lg2 f freeSfu) ∧ one (.fsin o) (Sfu.eval .sin f freeSfu) ∧ one (.fcos o) (Sfu.eval .cos f freeSfu) ∧
      one (.ftanh o) (Sfu.eval .tanh f freeSfu)) ∧
    (s.core.VbFull ty o.bs o.vb →
      let b := s.core.vbLanes ty o.bs o.vb
      let two (i : Instr) (g : Nat → Nat → Nat × Fl) : Prop :=
        exec i s = .next (s.now (·.delivered ty o.vd (List.zipWith (lift2 ty g) a b)))
      two (.fadd o) (fun x y => f.deliver rm false ((f.read x).add rm (f.read y))) ∧
      two (.fsub o) (fun x y => f.deliver rm false ((f.read x).add rm (f.read y).neg)) ∧
      two (.fmul o) (fun x y => f.deliver rm false ((f.read x).mul (f.read y))) ∧
      two (.fdiv o) (f.div rm) ∧ two (.fmin o) (f.pick false) ∧ two (.fmax o) (f.pick true) ∧
      two (.fcpys o) (fun x y => (x % f.signBit + (if f.isNeg y then f.signBit else 0), noFlags)) ∧
      let z := if (prefixOf s.core).usec then (prefixOf s.core).c else o.vd
      let three (i : Instr) (np nd : Bool) : Prop := exec i s = .next (s.now (·.delivered ty o.vd
        (List.zipWith (fun (p : Nat × Nat) w => lift3 ty (f.fma rm np nd) p.1 p.2 w) (List.zip a b) (s.core.lanes ty z))))
      (s.core.VFull ty z → three (.ffma o) false false ∧ three (.ffms o) false true ∧ three (.fnma o) true false))

/-- R17, R166: integer arithmetic, element by element, modulo 2^w, on the types I32, N32, I16 and I64; no flag. -/
def Obligations.VectorInteger : Prop :=
  ∀ (s : State) (o : VArgs), s.core.VectorCalm → 4 ≤ o.ty.toNat → s.core.VFull o.ty.toNat o.va → s.core.VFull o.ty.toNat o.vd →
    let ty := o.ty.toNat
    let w := elemBits ty
    let sgn (x : Nat) : Int := (BitVec.ofNat w x).toInt
    let wrap (z : Int) : Nat := (BitVec.ofInt w z).toNat
    let clamp (x y : Nat) (z : Int → Int → Int) : Nat :=
      if ty = 5 then wrap (max 0 (min (2 ^ 32 - 1) (z x y))) else wrap (max (-(2 ^ (w - 1))) (min (2 ^ (w - 1) - 1) (z (sgn x) (sgn y))))
    let a := s.core.lanes ty o.va
    let one (i : Instr) (g : Nat → Nat) : Prop :=
      exec i s = .next (s.now (·.delivered ty o.vd (a.map (lift1 ty fun x => (g x, noFlags)))))
    (one (.iabs o) (fun x => if ty = 5 then x else wrap (sgn x).natAbs) ∧
      one (.ipopc o) (fun x => ((List.range w).filter fun k => x.testBit k).length) ∧
      one (.iclz o) (fun x => if x = 0 then w else w - 1 - x.log2)) ∧
    (s.core.VbFull ty o.bs o.vb →
      let b := s.core.vbLanes ty o.bs o.vb
      let two (i : Instr) (g : Nat → Nat → Nat) : Prop :=
        exec i s = .next (s.now (·.delivered ty o.vd (List.zipWith (lift2 ty fun x y => (g x y, noFlags)) a b)))
      two (.iadd o) (fun x y => (x + y) % 2 ^ w) ∧ two (.isub o) (fun x y => wrap ((x : Int) - y)) ∧ two (.imul o) (fun x y => x * y % 2 ^ w) ∧
      two (.imulh o) (fun x y => wrap (sgn x * sgn y / 2 ^ w)) ∧ two (.imulhu o) (fun x y => x * y / 2 ^ w) ∧
      two (.iand o) (fun x y => x &&& y) ∧ two (.ior o) (fun x y => x ||| y) ∧ two (.ixor o) (fun x y => x ^^^ y) ∧
      two (.ishl o) (fun x y => x * 2 ^ (y % w) % 2 ^ w) ∧ two (.ishr o) (fun x y => x / 2 ^ (y % w)) ∧
      two (.isar o) (fun x y => wrap (sgn x / 2 ^ (y % w))) ∧
      two (.imin o) (fun x y => if sgn y < sgn x then y else x) ∧ two (.imax o) (fun x y => if sgn x < sgn y then y else x) ∧
      two (.iadds o) (fun x y => clamp x y (· + ·)) ∧ two (.isubs o) (fun x y => clamp x y (· - ·)) ∧
      two (.iminu o) (fun x y => min x y) ∧ two (.imaxu o) (fun x y => max x y))

/-- R98, R167, R168: comparisons and classification, and the operations on masks and flag sets. -/
def Obligations.VectorCompare : Prop :=
  ∀ (s : State) (o : VArgs), s.core.VectorCalm →
    let ty := o.ty.toNat
    let f := vfmt ty
    let a := s.core.lanes ty o.va
    let b := s.core.vbLanes ty o.bs o.vb
    let sgn (x : Nat) : Int := (BitVec.ofNat (elemBits ty) x).toInt
    let k (j : BitVec 5) : Mask := maskOrFlags s.core j.toNat
    let masks (i : Instr) (new : Mask) : Prop := exec i s = .next (s.now fun c => (c.writeMask o.vd.toNat new).stepped)
    (s.core.VFull ty o.va → s.core.VbFull ty o.bs o.vb →
      let sets (i : Instr) (p : Nat → Nat → Bool) (nv : Nat → Nat → Bool) : Prop := exec i s = .next (s.now fun c =>
        ((c.raise (List.zipWith (fun x y => { nv := nv x y }) a b)).writeMask o.vd.toNat (maskFrom (List.zipWith p a b))).stepped)
      let snan (x y : Nat) : Bool := (f.read x).isSnan || (f.read y).isSnan
      let nan (x y : Nat) : Bool := (f.read x).isNan || (f.read y).isNan
      let quiet (_ _ : Nat) : Bool := false
      sets (.fceq o) (fun x y => (f.read x).eq (f.read y)) snan ∧ sets (.fclt o) (fun x y => (f.read x).lt (f.read y)) nan ∧
      sets (.fcle o) (fun x y => (f.read x).lt (f.read y) || (f.read x).eq (f.read y)) nan ∧ sets (.fcun o) nan snan ∧
      sets (.fcne o) (fun x y => !(f.read x).eq (f.read y)) snan ∧
      sets (.iceq o) (fun x y => decide (x = y)) quiet ∧ sets (.icne o) (fun x y => decide (x ≠ y)) quiet ∧
      sets (.icltu o) (fun x y => decide (x < y)) quiet ∧ (4 ≤ ty → ty ≠ 6 → sets (.iclt o) (fun x y => decide (sgn x < sgn y)) quiet)) ∧
    (s.core.VFull ty o.va → s.core.VFull ty o.vd →
      exec (.fclass o) s = .next (s.now (·.delivered ty o.vd (a.map (lift1 ty fun x => (classOf f x, noFlags)))))) ∧
    masks (.mand o) (k o.va &&& k o.vb) ∧ masks (.mor o) (k o.va ||| k o.vb) ∧ masks (.mxor o) (k o.va ^^^ k o.vb) ∧
    masks (.mandn o) (k o.va &&& ~~~ k o.vb) ∧ masks (.mnot o) (~~~ k o.va)

/-- R89: the 16-bit forms act as the 32-bit functions of type F32 or I32, without mask or prefix operands of their own: va is vd,
read with t = 0. -/
def Obligations.SixteenBitForms : Prop :=
  ∀ (s : State) (o : HArgs), s.core.VectorCalm → s.core.VFull 0 o.vd → s.core.VFull 0 o.vb →
    let rm := arithMode s.core
    let a := s.core.lanes 0 o.vd
    let b := s.core.lanes 0 o.vb
    let two (i : Instr) (g : Nat → Nat → Nat × Fl) : Prop := exec i s = .next (s.now (·.delivered 0 o.vd (List.zipWith g a b)))
    let one (i : Instr) (g : Nat → Nat × Fl) : Prop := exec i s = .next (s.now (·.delivered 0 o.vd (b.map g)))
    two (.fadd16 o) (fmtF32.add rm) ∧ two (.fsub16 o) (fmtF32.sub rm) ∧ two (.fmul16 o) (fmtF32.mul rm) ∧
    two (.fmax16 o) (fmtF32.pick true) ∧ two (.fmin16 o) (fmtF32.pick false) ∧
    one (.fabs16 o) (fun x => (x % 2 ^ 31, noFlags)) ∧ one (.fneg16 o) (fun x => ((x + 2 ^ 31) % 2 ^ 32, noFlags)) ∧
    one (.vmov16 o) (fun x => (x, noFlags)) ∧
    two (.iadd16 o) (fun x y => ((x + y) % 2 ^ 32, noFlags)) ∧
    two (.isub16 o) (fun x y => ((2 ^ 32 + x - y) % 2 ^ 32, noFlags)) ∧ two (.imul16 o) (fun x y => (x * y % 2 ^ 32, noFlags)) ∧
    two (.iand16 o) (fun x y => (x &&& y, noFlags)) ∧ two (.ior16 o) (fun x y => (x ||| y, noFlags)) ∧
    two (.ixor16 o) (fun x y => (x ^^^ y, noFlags)) ∧
    two (.ishl16 o) (fun x y => (x * 2 ^ (y % 32) % 2 ^ 32, noFlags)) ∧ two (.ishr16 o) (fun x y => (x / 2 ^ (y % 32), noFlags))

/-- R169 to R171: a conversion of every field of every lane, in the mode in force, each with its own element index where it is
stochastic; with CREST the source values of active lanes are folded into CREG. CVTS converts one scalar into every field. The
element index of CVTS is the model's reading (log 9). -/
def Obligations.Conversions : Prop :=
  ∀ (s : State) (o : CvArgs), s.core.VectorCalm →
    let src := (Legal.cvtSource o).toNat
    let dst := o.vb.toNat
    let sat := decide (o.sat = 1)
    let count := min (fieldCount src) (fieldCount dst)
    s.core.VFull (codeTy dst) o.vd →
    (s.core.VFull (codeTy src) o.va → (modeNumber s.core = 5 ∧ (prefixOf s.core).usec = true → s.core.VFull 0 (prefixOf s.core).c) →
      let a := s.core.lanes (codeTy src) o.va
      let bases := if modeNumber s.core = 5 ∧ (prefixOf s.core).usec = true then s.core.lanes 0 (prefixOf s.core).c else List.range 128
      let values := a.map fun x => (List.range count).flatMap fun j => foldValue (elemOf src) (fieldOf src x j)
      exec (.cvt o) s = .next (s.now fun c =>
        (if o.crest = 1 then c.fold values else c).delivered (codeTy dst) o.vd (List.zipWith (convertLane c src dst sat) bases a))) ∧
    (s.core.Full o.va →
      let x := (s.core.s o.va.toNat).toNat
      let field (j : Nat) : Nat × Fl := convertElem (elemOf src) (elemOf dst) (convMode s.core j) sat (fieldOf src x 0)
      let lane : Nat × Fl := (List.range (fieldCount dst)).foldl
        (fun acc j => (acc.1 + (field j).1 * 2 ^ (fieldBits dst * j), acc.2.or (field j).2)) (0, noFlags)
      let value := (List.range 128).map fun i =>
        if lowestActive (activeMask s.core) = some i then foldValue (elemOf src) (fieldOf src x 0) else []
      exec (.cvts o) s = .next (s.now fun c =>
        (if o.crest = 1 then c.fold value else c).delivered (codeTy dst) o.vd (List.replicate 128 lane)))

/-- R43, R161, R172, R173: reductions of the active elements, votes and counts write a scalar; SCAN writes running sums. -/
def Obligations.Reductions : Prop :=
  (∀ (s : State) (o : VArgs), s.core.VectorCalm → s.core.VFull o.ty.toNat o.va → s.core.Writable o.vd →
    let ty := o.ty.toNat
    let m := activeMask s.core
    let a := s.core.lanes ty o.va
    let els := chosen m ty a
    let gives (i : Instr) (v : Word) (fl : Fl) : Prop := exec i s = .next (s.now fun c => (c.raiseLowest fl).result o.vd v)
    gives (.rsum o) (valRsum s.core ty m a).1 (valRsum s.core ty m a).2 ∧
    (ty = 4 → (valRsum s.core ty m a).1 = (BitVec.ofInt 32 (els.map fun x => (BitVec.ofNat 32 x).toInt).sum).signExtend 64) ∧
    (ty < 4 → els = [] → valRsum s.core ty m a = (0, noFlags)) ∧
    gives (.rmax o) (scalarOf ty (extreme true ty els).1) (extreme true ty els).2 ∧
    gives (.rmin o) (scalarOf ty (extreme false ty els).1) (extreme false ty els).2 ∧
    gives (.argmax o) (match argmaxOf ty m a with | some i => BitVec.ofNat 64 i | none => 0xFFFF_FFFF_FFFF_FFFF) noFlags ∧
    (ty < 4 → exec (.ramax o) s = .next (s.now fun c =>
      (c.fold (a.map fun x => (elements ty [x]).map (vfmt ty).read)).result o.vd (scalarOf ty (largestMagnitude (vfmt ty) els))))) ∧
  (∀ (s : State) (o : VArgs), s.core.VectorCalm → s.core.VFull o.ty.toNat o.va → s.core.VFull o.ty.toNat o.vd →
    let ty := o.ty.toNat
    let els := (elements ty (s.core.lanes ty o.va)).zip (activeElements ty (activeMask s.core))
    exec (.scan o) s = .next (s.now (·.delivered ty o.vd (gatherLanes ty
      (if ty < 4 then scanElements ((vfmt ty).add (arithMode s.core)) (loneElement (vfmt ty)) none els
       else scanElements (fun x y => ((x + y) % 2 ^ elemBits ty, noFlags)) (fun x => (x, noFlags)) none els))))) ∧
  ∀ (s : State) (o : VnArgs) (p : VArgs), s.core.VectorCalm → s.core.Writable o.vd → s.core.Writable p.vd →
    let m := activeMask s.core
    let k := maskOrFlags s.core o.va.toNat
    exec (.voteAny o) s = .next (s.now (·.result o.vd (if (List.range 128).any (fun i => m.getLsbD i && k.getLsbD i) then 1 else 0))) ∧
    exec (.voteAll o) s = .next (s.now (·.result o.vd (if (List.range 128).all (fun i => !m.getLsbD i || k.getLsbD i) then 1 else 0))) ∧
    exec (.voteNone o) s = .next (s.now (·.result o.vd (if (List.range 128).all (fun i => !m.getLsbD i || !k.getLsbD i) then 1 else 0))) ∧
    exec (.popm p) s = .next (s.now (·.result p.vd (BitVec.ofNat 64
      ((List.range 128).filter fun i => m.getLsbD i && (maskOrFlags s.core p.va.toNat).getLsbD i).length)))

/-- R83, R159, R174: permutes: a broadcast, one element out, one element in, a gather by index modulo the element count, a slide
with zeros moving in, and s + j in every element. All reads precede the write. That bs broadcasts the index operand of PERM is the
model's reading (log 16). -/
def Obligations.Permutes : Prop :=
  ∀ (s : State) (o : VArgs), s.core.VectorCalm →
    let ty := o.ty.toNat
    let n := elemCount ty
    let va := elements ty (s.core.lanes ty o.va)
    let x := s.core.s o.va.toNat
    let y := s.core.s o.vb.toNat
    let moves (i : Instr) (els : List Nat) : Prop :=
      exec i s = .next (s.now (·.delivered ty o.vd ((lanesOf ty els).map fun v => (v, noFlags))))
    (s.core.VFull ty o.va → s.core.Full o.vb → s.core.Writable o.vd →
      exec (.xtr o) s = .next (s.now (·.result o.vd (scalarOf ty (va.getD (y.toNat % n) 0))))) ∧
    (s.core.VFull ty o.vd →
      (s.core.Full o.va → exec (.bcast o) s = .next (s.now (·.delivered ty o.vd (List.replicate 128 (broadcast ty x, noFlags))))) ∧
      (s.core.Full o.va → s.core.Full o.vb →
        moves (.ins o) ((elements ty (s.core.lanes ty o.vd)).set (y.toNat % n) (x.toNat % 2 ^ elemBits ty))) ∧
      (s.core.VFull ty o.va → s.core.VbFull ty o.bs o.vb →
        moves (.perm o) ((elements ty (s.core.vbLanes ty o.bs o.vb)).map fun j => va.getD (j % n) 0)) ∧
      (s.core.VFull ty o.va → s.core.Full o.vb →
        moves (.slide o) ((List.range n).map fun (j : Nat) => if 0 ≤ (j : Int) - y.toInt then va.getD ((j : Int) - y.toInt).toNat 0 else 0)) ∧
      (s.core.Full o.va →
        exec (.iota o) s = .next (s.now (·.delivered ty o.vd (gatherLanes ty ((List.range n).map fun (j : Nat) =>
          if ty < 4 then
            (vfmt ty).deliver (arithMode s.core) false
              (((vfmt ty).read (x.toNat % 2 ^ elemBits ty)).add (arithMode s.core) (Num.ofInt j))
          else ((x.toNat % 2 ^ elemBits ty + j) % 2 ^ elemBits ty, noFlags)))))))

/-- R45, R46, R175 to R180: vector loads from the own scratchpad. Every active lane takes the little-endian element at its
address, inactive lanes follow the frame, no byte of memory changes: consecutive elements, a stride, a gather, a transposed tile
of 16 rows, a lane slice. That bs broadcasts the offset operand of VGATH is the model's reading (log 16). -/
def Obligations.VectorLoads : Prop :=
  ∀ (s : State) (o : VArgs), s.core.VectorCalm → s.core.VFull o.ty.toNat o.vd →
    let ty := o.ty.toNat
    let n := if isPairTy ty then 8 else 4
    let m := activeMask s.core
    let a := s.core.s o.va.toNat
    let b := s.core.s o.vb.toNat
    let gives (i : Instr) (vals : List Nat) : Prop := exec i s = .next (s.now fun c => (c.writeLanes ty o.vd.toNat vals).stepped)
    let loads (i : Instr) (ea : Nat → Word) : Prop := (∀ i < 128, m.getLsbD i = true → s.OwnScratch (ea i) n) →
      gives i ((List.range 128).map fun i => if m.getLsbD i then physNat s (s.ownPlace (ea i)) n else 0)
    (s.core.Full o.va → s.core.Full o.vb →
      loads (.vld o) (fun i => a + (b + BitVec.ofNat 64 i) * BitVec.ofNat 64 n) ∧
      loads (.vlds o) (fun i => a + BitVec.ofNat 64 i * b) ∧
      (let w := elemBits ty / 8
       let lane (e : Nat) : Nat := if isPacked ty then e / 2 else e
       let ea (e : Nat) : Word := a + BitVec.ofNat 64 (e % 16) * b + BitVec.ofNat 64 (e / 16 * w)
       let el (e : Nat) : Nat := if m.getLsbD (lane e) then physNat s (s.ownPlace (ea e)) w else 0
       (∀ e < elemCount ty, m.getLsbD (lane e) = true → s.OwnScratch (ea e) w) →
       gives (.vldt o) ((List.range 128).map fun i => if isPacked ty then el (2 * i) + el (2 * i + 1) * 2 ^ 16 else el i))) ∧
    (s.core.Full o.va → (if o.bs = 1 then s.core.Full o.vb else s.core.VFull ty o.vb) →
      let off (i : Nat) : Nat := if o.bs = 1 then (if isPairTy ty then b.toNat else b.toNat % 2 ^ 32) else (s.core.lanes ty o.vb).getD i 0
      loads (.vgath o) (fun i => a + BitVec.ofNat 64 (off i))) ∧
    (s.core.vIsFull o.vb.toNat = true →
      let off (i : Nat) : Nat := (VReg.nats (s.core.v o.vb.toNat)).getD i 0
      let at_ (i w : Nat) : Nat := scratch s s.cid (0xE0000 + 512 * (off i / 4) + 4 * i + 512 * w)
      s.OwnTurn → s.cid < 3072 → (∀ i < 128, m.getLsbD i = true → off i % n = 0 ∧ off i < 1024 ∧ ∀ w < n / 4, blockOf (at_ i w) ∉ s.ecc) →
      gives (.vldl o) ((List.range 128).map fun i => if m.getLsbD i then
        physNat s (at_ i 0) 4 + (if isPairTy ty then physNat s (at_ i 1) 4 * 2 ^ 32 else 0) else 0))

/-- R45, R46, R176 to R180: vector stores to the own scratchpad. Every active lane's element lies at its address afterwards,
unless a higher lane has stored over it; every byte that no active lane covers, every tag and every register stays. That bs
broadcasts the offset operand of VSCAT is the model's reading (log 16). -/
def Obligations.VectorStores : Prop :=
  ∀ (s : State) (o : VArgs), s.core.VectorCalm → s.Canonical → s.core.VFull o.ty.toNat o.vd →
    let ty := o.ty.toNat
    let n := if isPairTy ty then 8 else 4
    let m := activeMask s.core
    let a := s.core.s o.va.toNat
    let b := s.core.s o.vb.toNat
    let d := s.core.lanes ty o.vd
    let stores (i : Instr) (ea : Nat → Word) : Prop :=
      (∀ i < 128, m.getLsbD i = true → s.OwnScratch (ea i) n ∧ Unreserved (ea i) n) →
      let p (i : Nat) : Nat := s.ownPlace (ea i)
      ∃ t, exec i s = .next t ∧ t.core = s.core.stepped ∧ t.others = s.others ∧ t.host = s.host ∧ t.tags = s.tags ∧
        (∀ i < 128, m.getLsbD i = true → (∀ j < 128, i < j → m.getLsbD j = true → p j + n ≤ p i ∨ p i + n ≤ p j) →
          physNat t (p i) n = d.getD i 0) ∧
        ∀ q, (∀ i < 128, m.getLsbD i = true → q < p i ∨ p i + n ≤ q) → cellGet t.mem q = cellGet s.mem q
    (s.core.Full o.va → s.core.Full o.vb →
      stores (.vst o) (fun i => a + (b + BitVec.ofNat 64 i) * BitVec.ofNat 64 n) ∧
      stores (.vsts o) (fun i => a + BitVec.ofNat 64 i * b)) ∧
    (s.core.Full o.va → (if o.bs = 1 then s.core.Full o.vb else s.core.VFull ty o.vb) →
      let off (i : Nat) : Nat := if o.bs = 1 then (if isPairTy ty then b.toNat else b.toNat % 2 ^ 32) else (s.core.lanes ty o.vb).getD i 0
      stores (.vscat o) (fun i => a + BitVec.ofNat 64 (off i))) ∧
    (s.core.vIsFull o.vb.toNat = true →
      let off (i : Nat) : Nat := (VReg.nats (s.core.v o.vb.toNat)).getD i 0
      let at_ (i w : Nat) : Nat := scratch s s.cid (0xE0000 + 512 * (off i / 4) + 4 * i + 512 * w)
      s.OwnTurn → s.cid < 3072 → (∀ i < 128, m.getLsbD i = true → off i % n = 0 ∧ off i < 1024 ∧ ∀ w < n / 4, blockOf (at_ i w) ∉ s.ecc) →
      ∃ t, exec (.vstl o) s = .next t ∧ t.core = s.core.stepped ∧ t.others = s.others ∧ t.host = s.host ∧ t.tags = s.tags ∧
        (∀ i < 128, m.getLsbD i = true → ∀ w < n / 4, physNat t (at_ i w) 4 = d.getD i 0 / 2 ^ (32 * w) % 2 ^ 32) ∧
        ∀ q, (∀ i < 128, m.getLsbD i = true → ∀ w < n / 4, q < at_ i w ∨ at_ i w + 4 ≤ q) → cellGet t.mem q = cellGet s.mem q)

/-- R18, R31, R181, R189 to R191: tags of blocks of the own scratchpad as scalars, and the only tag written; code tables loaded
from the own scratchpad and looked up, where a NaN entry gives the default NaN: R16 has every NaN delivered be that one, beside
R18 and R190, which have the decoding be exact, and that R16 goes first is the model's reading (log 17); the nearest entry's code
(R190); random words; the transpose of nibbles in groups of eight lanes. -/
def Obligations.TagsAndTables : Prop :=
  ∀ (s : State) (o : VArgs), s.core.VectorCalm →
    let x := s.core.s o.va.toNat
    let y := s.core.s o.vb.toNat
    let va := VReg.nats (s.core.v o.va.toNat)
    let writes (i : Instr) (vals : List Nat) : Prop := exec i s = .next (s.now fun c => (c.writeLanes 0 o.vd.toNat vals).stepped)
    (s.core.Full o.va → s.core.Writable o.vd → s.OwnScratch x 1 →
      exec (.vtag o) s = .next (s.now (·.result o.vd ((tagGet s.tags (blockOf (s.ownPlace x))).setWidth 64)))) ∧
    (s.core.Full o.va → s.core.Full o.vb → s.OwnScratch x 1 → Unreserved x 1 → s.Canonical →
      ∃ t, exec (.vstag o) s = .next t ∧ t.core = s.core.stepped ∧ t.mem = s.mem ∧ t.host = s.host ∧
        ∀ q, tagGet t.tags q = if q = blockOf (s.ownPlace x) then y.setWidth 40 else tagGet s.tags q) ∧
    (s.core.Full o.va → (∀ k < (if o.ty = 0 then 256 else 16), s.OwnScratch (x + BitVec.ofNat 64 (4 * k)) 4) → x.toNat % 64 = 0 →
      let entry (k : Nat) : Lane := BitVec.ofNat 32 (physNat s (s.ownPlace (x + BitVec.ofNat 64 (4 * k))) 4)
      exec (.ctld o) s = .next (s.now fun c => Core.stepped
        (if o.ty = 0 then { c with c8 := Vector.ofFn fun i => entry i.val } else { c with c4 := Vector.ofFn fun i => entry i.val }))) ∧
    (s.core.vIsFull o.va.toNat = true → s.core.vIsFull o.vd.toNat = true →
      writes (.ctab o) (va.map fun k =>
        let entry := if o.ty = 1 then (s.core.c4.toList.getD (k % 16) 0).toNat else (s.core.c8.toList.getD (k % 256) 0).toNat
        if (fmtF32.read entry).isNan then 0x7FC0_0000 else entry) ∧
      exec (.ctenc o) s = .next (s.now (·.delivered 0 o.vd (va.map (encodeCode
        (if o.ty = 1 then s.core.c4.toList.map (·.toNat) else s.core.c8.toList.map (·.toNat)))))) ∧
      (s.core.Full o.vb → writes (.rng o) (va.map fun i =>
        let w := philox s.core.seed i 0 (y.toNat % 2 ^ 32) (y.toNat / 2 ^ 32)
        if o.ty = 5 then w else (fmtF32.round .rne false false (w / 256) (-24)).1))) ∧
    ∀ p : VnArgs, s.core.vIsFull p.va.toNat = true → s.core.vIsFull p.vd.toNat = true →
      ∃ vals : List Nat, vals.length = 128 ∧
        (∀ g r n, g < 16 → r < 16 → n < 4 →
          vals.getD (8 * g + (16 * n + r) / 8) 0 / 2 ^ (4 * ((16 * n + r) % 8)) % 16 =
            (VReg.nats (s.core.v p.va.toNat)).getD (8 * g + (4 * r + n) / 8) 0 / 2 ^ (4 * ((4 * r + n) % 8)) % 16) ∧
        exec (.unpkT p) s = .next (s.now fun c => (c.writeLanes 0 p.vd.toNat vals).stepped)

/-- R28 to R31, R184 to R188: quantising and packing into blocks of the own scratchpad merge the elements of active lanes, quarter
by quarter, into the blocks of the run, each under its masks; dequantising reads them back; UNPK expands one block into one or two
whole blocks. Bytes outside the run's blocks stay. What a format without NaN gives for a NaN is the model's reading (log 17). -/
def Obligations.Quantising : Prop :=
  ∀ (s : State) (o : VArgs), s.core.VectorCalm → s.core.vIsFull o.va.toNat = true →
    let own (a : Word) (k : Nat) : Prop := s.OwnScratch (nthBlock a k) 64
    let at_ (a : Word) (k : Nat) : Nat := s.ownPlace (nthBlock a k)
    let merges (i : Instr) (b : Word) (ws : List BlockWrite) (core : Core) : Prop :=
      s.Canonical → (∀ w ∈ ws, own b w.k ∧ Unreserved (nthBlock b w.k) 64) →
      ∃ t, exec i s = .next t ∧ t.core = core ∧ t.others = s.others ∧ t.host = s.host ∧
        (∀ w ∈ ws, physBlock t (at_ b w.k) =
          ⟨mergeBlock (physBlock s (at_ b w.k)).data w.data w.mask, mergeTag (physBlock s (at_ b w.k)).tag w.tag w.tagMask⟩) ∧
        ∀ q, (∀ w ∈ ws, blockOf q ≠ at_ b w.k) → cellGet t.mem q = cellGet s.mem q ∧ physTag t q = physTag s q
    let y := s.core.s o.vb.toNat
    let code := selectorCode o.vd.toNat
    let xs := VReg.nats (s.core.v o.va.toNat)
    let m := activeMask s.core
    (s.core.Full o.vb → y.toNat % 64 = 0 →
      let scales (q : Nat) : BitVec 8 := qntScales s.core code o.ty.toNat xs q
      let width := blockCount code / 4
      let under (scale : Nat → BitVec 8) (j : Nat) : Nat × Fl × Bool :=
        quantElement code (convMode s.core (objOff y / 64 * 128 + j)) (xs.getD j 0) (scale (j / width))
      let forced (q : Nat) : Bool := (List.range 128).any fun j => m.getLsbD j && j / width = q && (under scales j).2.2
      let written (q : Nat) : BitVec 8 := if forced q then 0xFF else scales q
      let rs := (List.range 128).map fun j => if forced (j / width) then
          (0, { noFlags with nv := (under scales j).2.2 && (under scales j).2.1.nv }, (under scales j).2.2)
        else under scales j
      merges (.qnt o) y (runOf code m (rs.map (·.1)) fun q => some (written q))
        (s.core.raise (rs.map (·.2.1))).stepped ∧
      merges (.pack o) y (runOf code m xs fun _ =>
        if !quarterScaled code || o.ty = 0 then some 0x7F else if o.ty = 1 then some s.core.crscScale else none) s.core.stepped) ∧
    (let x := s.core.s o.va.toNat
     let block (k : Nat) : Block := physBlock s (at_ x k)
     let n := blockCount (formatOf (block 0).tag)
     s.core.Full o.va → s.core.vIsFull o.vd.toNat = true → x.toNat % 64 = 0 →
     (∀ k < 128 / n, own x k ∧ dqntReads (formatOf (block k).tag) = true ∧ blockCount (formatOf (block k).tag) = n) →
     exec (.dqnt o) s = .next (s.now (·.delivered 0 o.vd ((List.range 128).map fun j =>
       let f := formatOf (block (j / n)).tag
       dequantElement s.core f (convMode s.core (objOff x / 64 * 128 + j)) (scaleByte (block (j / n)).tag (quarterOf f j))
         (storedElement f (block (j / n)).data (j % n)))))) ∧
    ∀ p : VnArgs, s.core.Full p.va → s.core.Full p.vb →
      let x := s.core.s p.va.toNat
      let z := s.core.s p.vb.toNat
      let src := physBlock s (at_ x 0)
      let f := formatOf src.tag
      x.toNat % 64 = 0 → z.toNat % 64 = 0 → own x 0 → (0x20 ≤ f ∧ f ≤ 0x23) →
      let els := (List.range (blockCount f)).map fun j =>
        if m.getLsbD j then expandElement s.core f (storedElement f src.data j) else (0, noFlags)
      merges (.unpk p) z ((List.range (blockCount f / 64)).map fun k =>
          { k := k, lane := 64 * k, data := blockOfElements 0x06 (((els.map (·.1)).drop (64 * k)).take 64), mask := BitVec.allOnes 64
            tag := if isSixBit f then tagOf 0x10 (scaleByte src.tag) else tagOf 0x06 fun _ => 0x7F, tagMask := BitVec.allOnes 5 })
        (s.core.raise (els.map (·.2) ++ List.replicate (128 - blockCount f) noFlags)).stepped

/-! ### The engines (R192 to R222) -/

/-- R193, R200 to R205: tiles zeroed, loaded, stored, read and written row by row, and the mode and scale words. A tile has no MMA
to wait for. MST is stated with OUT = 0, which stores the elements as they are, and without its options. R26, R42, R195 to R198:
MMA on operands of the own scratchpad, all rows of each in one format and both formats of one width class, whose accumulator is
the tile's format, retires with its operands read: that all 64 blocks are read in the step in which it issues is the model's
choice (log 10), where R206 lets them be read at different instants; the engine then adds to every element (i, j) the products of
row i of A and row j of B: in an I32 tile the exact total wrapped or, with ISAT, clamped; in a floating one the exact total
rounded once. Flags of corner products, and of NaN elements under a NaN scale, are the model's reading (log 17). -/
def Obligations.MatrixEngine : Prop :=
  (∀ (s : State) (o : VArgs), s.core.VectorCalm →
    let free (n : Nat) : Prop := n < 8 ∧ ∀ op ∈ s.core.mops, op.tile ≠ n
    let x := s.core.s o.va.toNat
    let y := s.core.s o.vb.toNat
    let n := o.vd.toNat
    let w := if s.core.tileFormat n = 1 then 8 else 4
    let fits (ty : BitVec 3) (k : Nat) : Prop := s.core.tileFormat k = 1 ↔ ty = 1
    (free n → exec (.mz o) s = .next (s.now fun c => (c.putTile n (Vector.replicate 1024 0)).stepped)) ∧
    (free n → s.core.Full o.va → x.toNat % w = 0 → (∀ e < 1024, s.OwnScratch (x + BitVec.ofNat 64 (e * w)) w) →
      exec (.mld o) s = .next (s.now fun c => (c.putTile n (Vector.ofFn fun e =>
        BitVec.ofNat 64 (physNat s (s.ownPlace (x + BitVec.ofNat 64 (e.val * w))) w))).stepped)) ∧
    (free n → s.core.Full o.va → s.core.Full o.vb → y.toNat % 2 ^ 10 = 0 → x.toNat % w = 0 → s.Canonical →
      (∀ e < 1024, s.OwnScratch (x + BitVec.ofNat 64 (e * w)) w ∧ Unreserved (x + BitVec.ofNat 64 (e * w)) w) →
      ∃ t, exec (.mst o) s = .next t ∧ t.core = s.core.stepped ∧ t.tags = s.tags ∧ t.host = s.host ∧
        (∀ e < 1024, physNat t (s.ownPlace x + e * w) w = ((s.core.tileOf n).toList.getD e 0).toNat % 2 ^ (8 * w)) ∧
        ∀ q, (q < s.ownPlace x ∨ s.ownPlace x + 1024 * w ≤ q) → cellGet t.mem q = cellGet s.mem q) ∧
    (free o.va.toNat → s.core.VFull o.ty.toNat o.vd → s.core.Full o.vb → y.toNat % 4 = 0 → y.toNat ≤ 28 → fits o.ty o.va.toNat →
      let row := ((s.core.tileOf o.va.toNat).toList.map fun z => if o.ty = 1 then z.toNat else z.toNat % 2 ^ 32).drop (32 * y.toNat)
      exec (.mrd o) s = .next (s.now fun c => (c.deliverLoad o.ty.toNat o.vd.toNat true (row.take 128)).stepped)) ∧
    (free n → s.core.VFull o.ty.toNat o.va → s.core.Full o.vb → y.toNat % 4 = 0 → y.toNat ≤ 28 → fits o.ty n →
      ∃ t : Tile, exec (.mwr o) s = .next (s.now fun c => (c.putTile n t).stepped) ∧
        ∀ e < 1024, t.toList.getD e 0 =
          if 32 * y.toNat ≤ e ∧ e < 32 * y.toNat + 128 then BitVec.ofNat 64 ((s.core.lanes o.ty.toNat o.va).getD (e - 32 * y.toNat) 0)
          else if o.ty = 1 then (s.core.tileOf n).toList.getD e 0 else BitVec.ofNat 64 (((s.core.tileOf n).toList.getD e 0).toNat % 2 ^ 32)) ∧
    ∀ p : VnArgs, s.core.Full p.va → s.core.mops = [] →
      let z := s.core.s p.va.toNat
      exec (.mcfgScale p) s = .next (s.now fun c => Core.stepped { c with sa := z.extractLsb' 0 32, sb := z.extractLsb' 32 32 }) ∧
      ((∀ k < 8, z.extractLsb' (2 * k) 2 ≠ 3#2) → exec (.mcfgMode p) s = .next (s.now fun c => Core.stepped { c with
        tf := Vector.ofFn fun k => z.extractLsb' (2 * k.val) 2
        isat := z.getLsbD 16
        tiles := Vector.ofFn fun k =>
          if z.extractLsb' (2 * k.val) 2 = c.tf.toList.getD k.val 0 then c.tileOf k.val else Vector.replicate 1024 0 }))) ∧
  ((∀ (s : State) (o : VArgs), s.core.VectorCalm → s.core.Full o.va → s.core.Full o.vb → (∀ op ∈ s.core.mops, op.tile ≠ o.vd.toNat) →
    let a := s.core.s o.va.toNat
    let b := s.core.s o.vb.toNat
    let row (x : Word) (r : Nat) : Block := physBlock s (s.ownPlace (x + BitVec.ofNat 64 (64 * r)))
    let f (x : Word) : Nat := formatOf (row x 0).tag
    (∀ r < 32, s.OwnScratch (a + BitVec.ofNat 64 (64 * r)) 64 ∧ s.OwnScratch (b + BitVec.ofNat 64 (64 * r)) 64 ∧
      formatOf (row a r).tag = f a ∧ formatOf (row b r).tag = f b) →
    (widthClass (f a)).isSome → widthClass (f b) = widthClass (f a) →
    (widthClass (f a)).map accumulator = some (s.core.tileFormat o.vd.toNat) →
    exec (.mma o) s = .next (s.now fun c => Core.stepped { c with mops := c.mops ++
      [{ tile := o.vd.toNat, a := (List.range 32).map (row a), b := (List.range 32).map (row b), sa := c.sa, sb := c.sb, isat := c.isat }] })) ∧
  ∀ (s : State) (op : MmaOp) (rest : List MmaOp), s.core.mops = op :: rest → op.tile < 8 → op.a.length = 32 → op.b.length = 32 →
    let tf := s.core.tileFormat op.tile
    ∃ t, exec (.mmaAccumulate s.cid) s = .next t ∧ t.core.mops = rest ∧ t.core.sregs = s.core.sregs ∧ t.core.vregs = s.core.vregs ∧
      t.mem = s.mem ∧ (∀ n, n ≠ op.tile → t.core.tileOf n = s.core.tileOf n) ∧
      ∀ i j, i < 32 → j < 32 →
        let old := (s.core.tileOf op.tile).toList.getD (32 * i + j) 0
        let new := (t.core.tileOf op.tile).toList.getD (32 * i + j) 0
        let ps := (products (rowValues op.sa (op.a.getD i ⟨0, 0⟩)) (rowValues op.sb (op.b.getD j ⟨0, 0⟩))).1
        (tf = 2 →
          let total := (old.extractLsb' 0 32).toInt + (ps.map Num.toInt).sum
          new = (BitVec.ofInt 32 (if op.isat then max (-(2 ^ 31)) (min (2 ^ 31 - 1) total) else total)).setWidth 64) ∧
        (tf = 0 → new = BitVec.ofNat 64 (roundAcc fmtF32 ((let v := fmtF32.read (old.toNat % 2 ^ 32); if v.isNan then .nan false else v) :: ps) false).1) ∧
        (tf = 1 → new = BitVec.ofNat 64 (roundAcc fmtF64 ((let v := fmtF64.read old.toNat; if v.isNan then .nan false else v) :: ps) false).1))

/-- R207 to R216: a copy whose descriptor and ends lie in the own scratchpad commits, enters its queue and writes its promise to
`d`: the later of CYC and the queue's youngest promise, plus 24 cycles and one for each 64 bytes, plus 8 an entry for CPYG; a full
queue makes it wait, committed, with the descriptor that it has read. QFENCE retires once its queues are empty and waits until
then; CSTAT writes the youngest promise, or 0. COPY_CHUNK, here of an operation that ends with its first chunk, moves the bytes of
a CPY; of a CPYA it adds the source's elements to the destination's, in F32 or B16, and leaves every tag; of a CPYG it moves the
bytes of each entry, in list order. Overlapping ranges, whose bytes are free (log 14), the clauses on it leave out. -/
def Obligations.Copies : Prop :=
  (∀ (s : State) (o : CpyArgs), s.core.Calm → s.core.Settled → s.core.Begins → s.core.trEn = false → s.core.Full o.a → s.core.Writable o.d →
    let a := s.core.s o.a.toNat
    s.OwnScratch a 32 →
    let p := s.ownPlace a
    let src := physWord s p
    let dst := physWord s (p + 8)
    let n := physNat s (p + 16) 8 % 2 ^ 41
    let m := physNat s (p + 16) 8 % 2 ^ 13
    let q := s.core.queue o.q.toNat
    let b16 := (physWord s (p + 24)).getLsbD 0
    let w := if b16 then 2 else 4
    let last := match q.ops.getLast? with
      | some x => x.promise
      | none => 0
    let start := if last.toNat < s.pkg.cyc.toNat then s.pkg.cyc else last
    let enters (i : Instr) (kind : CopyKind) (len : Nat) (cycles : Nat) : Prop :=
      (q.ops.length < 16 → exec i s = .next (s.now fun c => Core.renewed (((commitRegion c).putQueue o.q.toNat { q with ops := q.ops ++
        [{ kind := kind, src := src, dst := dst, len := len, b16 := b16, promise := start + BitVec.ofNat 64 cycles, pos := 0, entry := 0,
           entryPos := 0 }] }).setS o.d.toNat (start + BitVec.ofNat 64 cycles)))) ∧
      (16 ≤ q.ops.length → exec i s = .next { s with
        held := true
        core := { commitRegion s.core with committed := true, noAbort := false, image := physBytes s p 32 } })
    s.OwnScratch src 1 → s.OwnScratch dst 1 → Unreserved dst 1 →
    (0 < n → n ≤ 2 ^ 40 → enters (.cpy o) .cpy n (24 + (n + 63) / 64) ∧
      (src.toNat % w = 0 → dst.toNat % w = 0 → n % w = 0 → enters (.cpya o) .cpya n (24 + (n + 63) / 64))) ∧
    (0 < m → m ≤ 4096 → src.toNat % 16 = 0 → (∀ i < m, s.OwnScratch (src + BitVec.ofNat 64 (16 * i)) 16) →
      let entry (i : Nat) : Nat := s.ownPlace (src + BitVec.ofNat 64 (16 * i))
      let len (i : Nat) : Nat := physNat s (entry i + 8) 8 % 2 ^ 41
      (∀ i < m, s.OwnScratch (physWord s (entry i)) 1 ∧ 0 < len i ∧ len i ≤ 2 ^ 40) →
      enters (.cpyg o) .cpyg m (24 + (((List.range m).map len).sum + 63) / 64 + 8 * m))) ∧
  (∀ (s : State) (o : QfArgs) (p : CpyArgs), s.core.Calm →
    ((∀ n < 4, o.k.getLsbD n = true → (s.core.queue n).ops = []) → exec (.qfence o) s = .next (s.now Core.stepped)) ∧
    ((∃ n < 4, o.k.getLsbD n = true ∧ (s.core.queue n).ops ≠ []) → s.core.trEn = false → exec (.qfence o) s = .next { s with held := true }) ∧
    (s.core.Writable p.d → exec (.cstat p) s = .next (s.now (·.result p.d (match (s.core.queue p.q.toNat).ops.getLast? with
      | some x => x.promise
      | none => 0))))) ∧
  ∀ (s : State) (n : Nat) (x : CopyOp) (rest : List CopyOp), n < 4 → (s.core.queue n).ops = x :: rest → x.pos = 0 →
    s.OwnScratch x.src 1 → s.OwnScratch x.dst 1 → s.Canonical → s.ecc = [] →
    let p := s.ownPlace x.src
    let q := s.ownPlace x.dst
    let apart (a : Word) (len total : Nat) : Prop := (a.extractLsb' 0 60).toNat + len ≤ 2 ^ 20 ∧
      (a.toNat + len ≤ x.dst.toNat ∨ x.dst.toNat + total ≤ a.toNat)
    let ends (total : Nat) (holds : State → Prop) : Prop := ∃ t, exec (.copyChunk s.cid n) s = .next t ∧
      (t.core.queue n).ops = rest ∧ t.core.pc = s.core.pc ∧ holds t ∧
      ∀ b, (b < q ∨ q + total ≤ b) → cellGet t.mem b = cellGet s.mem b
    (x.kind ≠ .cpyg → 0 < x.len → x.len ≤ 4096 → (x.dst.extractLsb' 0 60).toNat + x.len ≤ 0xD8000 → apart x.src x.len x.len →
      (x.kind = .cpy → ends x.len fun t => ∀ j < x.len, physGet t (q + j) = physGet s (p + j)) ∧
      (x.kind = .cpya →
        let f := if x.b16 then fmtB16 else fmtF32
        let w := if x.b16 then 2 else 4
        x.src.toNat % w = 0 → x.dst.toNat % w = 0 → x.len % w = 0 →
        ends x.len fun t => t.tags = s.tags ∧ ∀ j < x.len / w,
          physNat t (q + w * j) w = (f.add .rne (physNat s (q + w * j) w) (physNat s (p + w * j) w)).1 % 2 ^ (8 * w))) ∧
    (x.kind = .cpyg → x.entry = 0 → x.entryPos = 0 → 0 < x.len → (∀ i < x.len, s.OwnScratch (x.src + BitVec.ofNat 64 (16 * i)) 16) →
      let entry (i : Nat) : Nat := s.ownPlace (x.src + BitVec.ofNat 64 (16 * i))
      let from_ (i : Nat) : Word := physWord s (entry i)
      let len (i : Nat) : Nat := physNat s (entry i + 8) 8 % 2 ^ 41
      let before (i : Nat) : Nat := ((List.range i).map len).sum
      before x.len ≤ 4096 → (x.dst.extractLsb' 0 60).toNat + before x.len ≤ 0xD8000 → apart x.src (16 * x.len) (before x.len) →
      (∀ i < x.len, s.OwnScratch (from_ i) 1 ∧ 0 < len i ∧ apart (from_ i) (len i) (before x.len)) →
      ends (before x.len) fun t => ∀ i < x.len, ∀ j < len i,
        physGet t (q + before i + j) = physGet s (s.ownPlace (from_ i) + j))

/-- R65, R218 to R222: REPB opens a capture; REPX of a full capture, an accepted window and a full footprint marks the footprint
empty, keeps FCSR and the address that follows it for the captured instructions (R53, R220) and starts the sequence; REPW retires
once no sequence runs and the footprint is full; an iteration of a captured IADD adds the renamed registers and the sequencer gets
on. What the capture does at a commit point or an illegal word is not stated here (log 21). -/
def Obligations.Repetition : Prop :=
  (∀ (s : State) (o : RArgs), s.core.Calm → s.core.rep.state ≠ 2 →
    exec (.repb o) s = .next (s.now fun c => Core.stepped { c with rep := { c.rep with state := 1, cap := [], n := o.b.toNat + 1 } }) ∧
    (s.core.Full o.a → s.core.Full o.b → s.core.rep.state ≠ 0 → s.core.rep.n ≤ s.core.rep.cap.length →
      let count := s.core.s o.a.toNat
      let w := s.core.s o.b.toNat
      let base := (w.extractLsb' 0 5).toNat
      let size := (w.extractLsb' 5 6).toNat
      let stag := (w.extractLsb' 11 5).toNat
      let r := s.core.rep.load count.toNat w
      count.toNat ≤ 65535 → (size = 0 ∨ (base + size ≤ 32 ∧ stag < size)) → (∀ f ∈ r.footprint, s.core.footFull f = true) →
      (r.count = count.toNat ∧ r.base = base ∧ r.size = size ∧ r.stag = stag ∧ r.iter = 0 ∧ r.pos = 0) ∧
      (count ≠ 0 → exec (.repx o) s = .next (s.now fun c =>
        Core.stepped (r.footprint.foldl Core.footEmpty { c with rep := { r with state := 2, fcsr := c.fcsr, after := c.next } }))) ∧
      (count = 0 → exec (.repx o) s = .next (s.now fun c => Core.stepped { c with rep := { r with fcsr := c.fcsr, after := c.next } }))) ∧
    (s.core.rep.state ≠ 3 → (∀ f ∈ s.core.rep.footprint, s.core.footFull f = true) → exec (.repw o) s = .next (s.now Core.stepped))) ∧
  ∀ (s : State) (a : Word) (i : BitVec 32) (x : VArgs), s.core.rep.state = 2 → s.core.pfx = none → s.core.repAt = none →
    let r := s.core.rep
    let nm (k : BitVec 5) : Nat :=
      if r.base ≤ k.toNat ∧ k.toNat < r.base + r.size then r.base + (k.toNat - r.base + r.iter * r.stag) % r.size else k.toNat
    let ready (k : Nat) : Prop := s.core.vIsFull k = true ∨ ∃ f ∈ r.footprint, f.vector = true ∧ f.reg = k
    r.cap[r.pos]? = some ⟨a, none, i, some (.iadd x)⟩ → x.ty = 4 → x.bs = 0 → ready (nm x.va) → ready (nm x.vb) → ready (nm x.vd) →
    exec (.repIteration s.cid) s = .next (s.now fun c => Core.repAdvance (c.putV (nm x.vd) (VReg.ofNats (List.zipWith (fun p q => (p + q) % 2 ^ 32)
      (VReg.nats (c.v (nm x.va))) (VReg.nats (c.v (nm x.vb)))))))

/-- R86 to R88, R102: a prefix and the instruction after it issue as one: the instruction acts with the prefix in force and its
own word as the one in issue, and its next address is 8 bytes on. A prefixed FADD or IADD whose operands are full completes: its
lanes are delivered under the prefix's mask, zero bit and rounding mode. A word that may not follow faults with cause 0x01 and the
prefix's word, which is the model's reading (log 21). A hint only advances the pc. Every word of the hint region is one, and none
may follow a prefix. -/
def Obligations.PrefixAndHint : Prop :=
  (∀ (s u : State) (o : PArgs) (w : BitVec 32), fetchInsn (s.core.pc + 4) s = .ok (w, u) →
    let p : Pfx := { mask := o.mask, zero := decide (o.zero = 1), rm := o.rm, usec := decide (o.usec = 1), c := o.c }
    (∀ i, mayFollow w = true → decode32 w = .ok i → i.illegalUnder o = false →
      exec (.pfx o) s = exec i { u with core := { u.core with insn := w, pfx := some p } } ∧
      Core.next { u.core with insn := w, pfx := some p } = u.core.pc + 8) ∧
    (∀ x : VArgs,
      let v : State := { u with core := { u.core with insn := w, pfx := some p } }
      let ty := x.ty.toNat
      let lanes (g : Nat → Nat → Nat × Fl) : List (Nat × Fl) :=
        List.zipWith (lift2 ty g) (v.core.lanes ty x.va) (v.core.vbLanes ty x.bs x.vb)
      let delivers (g : Nat → Nat → Nat × Fl) : Prop := exec (.pfx o) s = .next (v.now (·.delivered ty x.vd (lanes g)))
      mayFollow w = true → v.core.VectorCalm → v.core.VFull ty x.va → v.core.VFull ty x.vd → v.core.VbFull ty x.bs x.vb →
        (decode32 w = .ok (.fadd x) → (Instr.fadd x).illegalUnder o = false →
          delivers fun a b => (vfmt ty).deliver (arithMode v.core) false (((vfmt ty).read a).add (arithMode v.core) ((vfmt ty).read b))) ∧
        (decode32 w = .ok (.iadd x) → (Instr.iadd x).illegalUnder o = false → 4 ≤ ty →
          delivers fun a b => ((BitVec.ofNat (elemBits ty) a + BitVec.ofNat (elemBits ty) b).toNat, noFlags))) ∧
    (mayFollow w = false → exec (.pfx o) s = .next (takeFault { cause := 0x01 } u))) ∧
  (∀ (s : State) (o : HintArgs), s.core.Calm → exec (.hint o) s = .next (s.now Core.stepped)) ∧
  ∀ w : BitVec 32, w.getLsbD 0 = true → 0x38 ≤ (majorOf w).toNat → (majorOf w).toNat ≤ 0x3B →
    decode32 w = .ok (.hint (HintArgs.read w)) ∧ mayFollow w = false

/-! ### Sequences, experts, updates (R223 to R244, R370 to R407) -/

/-- R224, R236 to R238, R242: TSEQ writes the record of a descriptor that it accepts and status 0, else status 1 and no record;
TSEQ_FREE clears a record; WCLR clears a slot of a valid sequence, and the inject buffer with its slot: the INJECT slot of R238 is
slot INJSLOT while NINJ is not 0, the model's reading where a record has been edited (log 31); TREAD reads one word of a record.
The commit comes first. An uncorrectable error in the record, as it is read or, for TSEQ, merged into, is reported before it (R71,
R301): that the record is read as a whole is the model's reading (log 31). R224, R237: WSET of a pattern or budget slot without
inject on a valid sequence whose slot does not own the inject buffer writes the slot's control word and pattern and status 0; one
of a sequence that is not valid gives status 1, and a slot of kind 0 or 3 status 2, each without writing memory. -/
def Obligations.SequenceRecords : Prop :=
  (∀ (s : State), s.core.Calm → s.core.VectorCalm → s.core.Settled → s.Canonical → s.cid < 3072 →
    let record (t : State) (q : Nat) : List Byte := physBytes t (scratch s s.cid (0xDA400 + 224 * q)) 224
    let others (t : State) (q : Nat) : Prop :=
      ∀ a, (a < scratch s s.cid (0xDA400 + 224 * q) ∨ scratch s s.cid (0xDA400 + 224 * (q + 1)) ≤ a) → cellGet t.mem a = cellGet s.mem a
    (∀ (o : VArgs) (bytes : List Byte), s.core.Full o.va → s.core.Full o.vb → s.core.Writable o.vd → (s.core.s o.va.toNat).toNat % 8 = 0 →
      readImageAt (s.core.s o.va.toNat) 64 s = .ok ((bytes, false), s) → orderRun (s.core.s o.va.toNat) 64 s = .ok ((), s) →
      let q := (s.core.s o.vb.toNat).toNat % 32
      let at_ (k n : Nat) : Nat := leValue ((bytes.drop k).take n)
      let nh := at_ 0x18 4 % 16
      let writes (t : State) (status : Word) : Prop := t.core = ((commitRegion s.core).setS o.vd.toNat status).renewed ∧ t.tags = s.tags
      ((at_ 4 4 = 0 ∨ at_ 4 4 < at_ 0 4 ∨ 8 < nh ∨ at_ 0 4 < nh) →
        ∃ t, exec (.tseq o) s = .next t ∧ writes t 1 ∧ t.mem = s.mem) ∧
      (at_ 4 4 ≠ 0 → at_ 0 4 ≤ at_ 4 4 → nh ≤ 8 → nh ≤ at_ 0 4 →
        (∀ e, takesSeq q s = .error e → exec (.tseq o) s = .next (takeStop e s)) ∧
        (takesSeq q s = .ok ((), s) → ∃ t, exec (.tseq o) s = .next t ∧ writes t 0 ∧ others t q ∧
          record t q = Seq.bytes { Seq.zero with
            v := true, len := at_ 0 4, cap := at_ 4 4, thr0 := at_ 8 4, thr1 := at_ 0xC 4, lo := at_ 0x10 3, hi := at_ 0x14 3, hv := nh
            h := (List.range 8).map fun k => if k < nh then at_ (0x20 + 4 * (nh - 1 - k)) 3 else 0 }))) ∧
    (∀ (o : TfArgs), s.core.Full o.vb → s.core.Writable o.vd →
      let q := (s.core.s o.vb.toNat).toNat % 32
      (∀ e, takesSeq q s = .error e → exec (.tseqFree o) s = .next (takeStop e s)) ∧
      (takesSeq q s = .ok ((), s) → ∃ t, exec (.tseqFree o) s = .next t ∧ t.core = ((commitRegion s.core).setS o.vd.toNat 0).renewed ∧ others t q ∧
        record t q = List.replicate 224 0)) ∧
    (∀ (o : VArgs), s.core.Full o.va →
      let w := s.core.s o.va.toNat
      let q := w.toNat % 32
      let n := w.toNat / 256 % 4
      let x := seqAt s q
      (∀ e, readSeq q s = .error e → exec (.wclr o) s = .next (takeStop e s)) ∧
      (readSeq q s = .ok ((), s) → ∃ t, exec (.wclr o) s = .next t ∧ t.core = (commitRegion s.core).renewed ∧ others t q ∧
        (x.v = false → t.mem = s.mem) ∧
        (x.v = true → (seqAt t q).slot n = Watch.empty ∧ (∀ m < 4, m ≠ n → (seqAt t q).slot m = x.slot m) ∧ (seqAt t q).len = x.len ∧
          (seqAt t q).h = x.h ∧ (seqAt t q).ninj = if x.ninj ≠ 0 ∧ x.injslot = n then 0 else x.ninj))) ∧
    ∀ (o : VArgs), s.core.Full o.va → s.core.Full o.vb → s.core.Writable o.vd → s.ecc = [] → (s.core.s o.vb.toNat).toNat ≤ 55 →
      exec (.tread o) s = .next (s.now (·.result o.vd (BitVec.ofNat 64
        (physNat s (scratch s s.cid (0xDA400 + 224 * ((s.core.s o.va.toNat).toNat % 32)) + 4 * (s.core.s o.vb.toNat).toNat) 4))))) ∧
  (∀ (s : State) (o : VArgs) (bytes : List Byte), s.core.Calm → s.core.Settled → s.Canonical → s.cid < 3072 → s.core.Full o.va → s.core.Full o.vb →
    s.core.Writable o.vd → (s.core.s o.va.toNat).toNat % 8 = 0 → readImageAt (s.core.s o.va.toNat) 72 s = .ok ((bytes, false), s) →
    orderRun (s.core.s o.va.toNat) 72 s = .ok ((), s) →
    let w := s.core.s o.vb.toNat
    let q := w.toNat % 32
    let n := w.toNat / 256 % 4
    let x := seqAt s q
    let at_ (k m : Nat) : Nat := leValue ((bytes.drop k).take m)
    let ctl := at_ 0 4
    let kind := ctl % 4
    let action := ctl / 4 % 4
    let plen := ctl / 32 % 16
    let writes (t : State) (status : Word) : Prop := t.core = ((commitRegion s.core).setS o.vd.toNat status).renewed
    (∀ e, readSeq q s = .error e → exec (.wset o) s = .next (takeStop e s)) ∧
    (readSeq q s = .ok ((), s) →
    (x.v = false → ∃ t, exec (.wset o) s = .next t ∧ writes t 1 ∧ t.mem = s.mem) ∧
    (x.v = true → (kind = 0 ∨ kind = 3) → ∃ t, exec (.wset o) s = .next t ∧ writes t 2 ∧ t.mem = s.mem) ∧
    (x.v = true → ¬ (x.ninj ≠ 0 ∧ x.injslot = n) → ((kind = 1 ∧ 1 ≤ plen ∧ plen ≤ 8 ∧ action ≠ 2) ∨ (kind = 2 ∧ (action = 0 ∨ action = 3))) →
      ∃ t, exec (.wset o) s = .next t ∧ writes t 0 ∧
        (seqAt t q).slot n =
          { kind := kind, action := action, trap := ctl.testBit 4, plen := plen, wild := ctl / 2 ^ 9 % 2 ^ 8, cntsel := ctl / 2 ^ 17 % 2
            reserved := 0
            p := (List.range 8).map fun j => if kind = 1 ∧ j < plen then at_ (8 + 4 * j) 3 else 0 } ∧
        (∀ m < 4, m ≠ n → (seqAt t q).slot m = x.slot m) ∧ (seqAt t q).h = x.h ∧ (seqAt t q).len = x.len)))

/-- R225, R226, R230 to R232, R235, R239 to R241: a token instruction commits, performs its participating lanes in ascending order
and writes a lane code for each; without a trap it retires. One that traps makes its changes, queues the packet of its first trap
and stalls; each further packet follows once the one before is accepted, and it retires once the last is (R76, R232, R247). While
an informational packet of the core waits before it, it stalls, committed, and has changed nothing. An uncorrectable error in a
record that it reads stops it before the commit (R71, R301), the records of its sequences being read as a whole, which is the
model's reading (log 31). That its packets are made in the step of its changes is the model's reading (log 31). A token joins a
valid sequence that is neither stopped nor full: it enters the tail, LEN and the counters rise and the drafts are dropped; without
a hit its code is 0. A sequence not valid gives code 10, a stopped one 8, a full one 9. TDRAFT keeps a draft token for later;
TCONF of a lane without drafts confirms none. -/
def Obligations.Tokens : Prop :=
  (∀ (s : State) (o : VArgs), s.core.VectorCalm → s.core.Settled → s.core.vIsFull o.va.toNat = true → s.core.vIsFull o.vb.toNat = true →
    s.core.vIsFull o.vd.toNat = true → s.core.Begins →
    let lanes := (List.range 128).zip ((VReg.nats (s.core.v o.va.toNat)).zip (VReg.nats (s.core.v o.vb.toNat)))
    let start : TokWork := { tab := (List.range 32).map (seqAt s), note := s.core.wnote, traps := [] }
    let performs (i : Instr) (conf : Bool) (f : Nat → Nat → Nat → TokWork → LaneCode × TokWork) : Prop :=
      let r := performLanes (activeMask s.core) f lanes start
      let u := (storeWork r.2 (s.now commitRegion)).now (·.writeLanes 0 o.vd.toNat r.1)
      let reads := each readSeq r.2.used.eraseDups s
      (∀ e, reads = .error e → exec i s = .next (takeStop e s)) ∧
      (reads = .ok ((), s) →
      (r.2.traps = [] → exec i s = .next (u.now Core.renewed)) ∧
      (∀ x xs, r.2.traps = x :: xs → infoWaits s.core = false → s.core.trEn = false →
        let packet (y : SeqTrap) : Packet := seqPacket conf y (s.now commitRegion)
        exec i s = .next { u with
          held := true
          core := { u.core with
            packets := u.core.packets ++ [packet x], trapsDue := some (xs.map packet), committed := true, noAbort := true } }) ∧
      (r.2.traps ≠ [] → infoWaits s.core = true → s.core.trEn = false →
        exec i s = .next { s with held := true, core := { commitRegion s.core with committed := true, noAbort := true } }))
    performs (.tcommit o) false (fun i q x t => commitLane q (x % 2 ^ 24) i 0 {} t) ∧
    performs (.tdraft o) false (fun _ q x t => draftLane q x t) ∧
    performs (.tconf o) true (fun i q k t => confirmLane q (k % 16) i t)) ∧
  (∀ (s : State) (o : VArgs) (ps : List Packet), s.core.Calm → s.core.trEn = false → s.core.trapsDue = some ps →
    let sends (i : Instr) : Prop :=
      (infoWaits s.core = true →
        exec i s = .next { s with held := true, core := { s.core with committed := true, noAbort := true } }) ∧
      (infoWaits s.core = false → ps = [] → exec i s = .next (s.now Core.renewed)) ∧
      ∀ x xs, infoWaits s.core = false → ps = x :: xs → exec i s = .next { s with
        held := true
        core := { s.core with packets := s.core.packets ++ [x], trapsDue := some xs, committed := true, noAbort := true } }
    sends (.tcommit o) ∧ sends (.tdraft o) ∧ sends (.tconf o)) ∧
  ∀ (t : TokWork) (q x lane : Nat), t.tab.length = 32 → q < 32 → x < 2 ^ 24 →
    let y := t.seq q
    let r := commitLane q x lane 0 {} t
    let d := draftLane q x t
    (y.v = false → r = ({ code := 10 }, t) ∧ d = ({ code := 10 }, t)) ∧
    (y.v = true → y.stop = true → r = ({ code := 8 }, t) ∧ d = ({ code := 8 }, t)) ∧
    (y.v = true → y.stop = false →
      (y.cap ≤ y.len → r = ({ code := 9 }, t)) ∧
      (8 ≤ y.ndraft → d = ({ code := 11 }, t)) ∧
      (y.ndraft < 8 → y.d.length = 8 → d.1 = {} ∧ (d.2.seq q).ndraft = y.ndraft + 1 ∧ (d.2.seq q).d.getD y.ndraft 0 = x ∧
        (d.2.seq q).h = y.h ∧ ∀ p, p ≠ q → d.2.seq p = t.seq p) ∧
      (y.len < y.cap → (∀ n < 4, (y.slot n).kindNow = 0) →
        r.1 = {} ∧ (r.2.seq q).h = x :: y.h.take 7 ∧ (r.2.seq q).hv = (if y.hv < 8 then y.hv + 1 else y.hv) ∧ (r.2.seq q).len = (y.len + 1) % 2 ^ 32 ∧
        (r.2.seq q).ndraft = 0 ∧ (r.2.seq q).cnt0 = (if y.cnt0 < 2 ^ 32 - 1 then y.cnt0 + 1 else y.cnt0) ∧
        (r.2.seq q).cnt1 = (if y.lo % 2 ^ 24 ≤ x ∧ x ≤ y.hi % 2 ^ 24 ∧ y.cnt1 < 2 ^ 32 - 1 then y.cnt1 + 1 else y.cnt1) ∧ r.2.traps = t.traps ∧
        ∀ p, p ≠ q → r.2.seq p = t.seq p) ∧
      (confirmLane q 0 lane t).1 = {})

/-- R376, R384, R385: EXROUTE commits, sends its request, marks `d` empty and goes on; the home answers all ones for an expert not
valid or without routable slot; else the routable slot of least OUTST, the lowest of several, or in hash mode the one whose number
among them is Philox of key and name modulo how many they are; its ROUTED and OUTST rise by the count; the answer fills `d` and
moves RPC past the EXROUTE. -/
def Obligations.ExpertRouting : Prop :=
  (∀ (s : State) (o : RArgs), s.core.Calm → s.core.Settled → s.core.Full o.a → s.core.Full o.b → s.core.Writable o.d →
    let w := s.core.s o.a.toNat
    let n := s.core.s o.b.toNat
    n ≠ 0 → n.toNat < 2 ^ 32 →
    exec (.exroute o) s = .next { s with
      net := s.net ++ [.expert s.cid (w.extractLsb' 0 16) (.route (w.extractLsb' 32 32) n)]
      core := Core.stepped { (commitRegion s.core).emptyS o.d.toNat with exroute := some (o.d.toNat, s.core.next) } }) ∧
  (∀ (s : State) (n core : Nat) (x : BitVec 16) (key : BitVec 32) (count : Word), s.net[n]? = some (.expert core x (.route key count)) →
    ExpertHome s x →
    ((xValid s x = false ∨ routable s x = []) →
      exec (.expertHomeOperation n) s = .next { s with net := s.net.eraseIdx n ++ [.expertAnswer core (BitVec.allOnes 64)] }) ∧
    ∀ j, xValid s x = true → xGrow s x = 0 →
      (xHash s x = false → j ∈ routable s x ∧ ∀ k ∈ routable s x, (replica s x j).outst.toNat < (replica s x k).outst.toNat ∨
        ((replica s x j).outst = (replica s x k).outst ∧ j ≤ k)) →
      (xHash s x = true → (routable s x)[philox 0 key.toNat x.toNat 0 0 % (routable s x).length]? = some j) →
      ∃ t v, exec (.expertHomeOperation n) s = .next t ∧ t.net = s.net.eraseIdx n ++ [.expertAnswer core v] ∧
        v = BitVec.ofNat 64 ((replica s x j).core + j * 2 ^ 12 + (replica s x j).wobj * 2 ^ 16 + (xRoster s x).toNat * 2 ^ 39) ∧
        replica t x j = { replica s x j with routed := (replica s x j).routed + count, outst := (replica s x j).outst + count } ∧
        (∀ k < 16, k ≠ j → replica t x k = replica s x k) ∧ xJroster t x = xJroster s x ||| (1#16 <<< j)) ∧
  ∀ (s : State) (n : Nat) (v : Word) (d : Nat) (next : Word), s.net[n]? = some (.expertAnswer s.cid v) → s.core.exroute = some (d, next) → d < 32 →
    exec (.expertAnswer n) s = .next { s with net := s.net.eraseIdx n, core := { s.core.setS d v with exroute := none, rpc := next } }

/-- R374, R380, R382, R386 to R388, R390, R391: the owner's instructions. EXSPAWN takes the lowest empty slot, or answers with the
status of its first failing condition; EXACT makes a slot ACTIVE with the current CVER; EXRETIRE empties it, or leaves it DRAINING
where this step has routed to it; EXPUB closes the step: CVER rises, ROUTED and the step's masks clear; each but EXSPAWN advances
ROSTER. Another core's instruction freezes it with cause 0x05, its region committed. EXSTAT reads the roster word, once the core's
own requests to the expert are performed. R379, R389: EXJOIN without a partial takes its count off the slot's OUTST; EXJOIN and
EXJOIN.F with one, of the own scratchpad, whose count is all that is outstanding, write it to the slot's place in the join area,
set its bit in JOINED, and EXJOIN.F hands the slot over. That EXJOIN flushes the core's own lines of its destination is the
model's reading (log 34). -/
def Obligations.ExpertOwners : Prop :=
  (∀ (s : State) (o : RArgs), s.core.Calm → s.core.Settled → s.core.Full o.a →
    let w := s.core.s o.a.toNat
    let x := w.extractLsb' 0 16
    let n := (w.extractLsb' 16 4).toNat
    let r := replica s x n
    let keeps (t : State) (j : Nat) : Prop := ∀ k < 16, k ≠ j → replica t x k = replica s x k
    ExpertHome s x →
    (s.core.Writable o.d → expertAhead x s = false → exec (.exstat o) s = .next (s.now (·.result o.d (if xValid s x = false then 0x8000_0000_0000_0000
      else BitVec.ofNat 64 ((xJroster s x).toNat + (xHanded s x).toNat * 2 ^ 16 + (xJoined s x).toNat * 2 ^ 32 + (xRoster s x).toNat * 2 ^ 48 +
        (routable s x).length * 2 ^ 56))))) ∧
    (xValid s x = true → xOwner s x ≠ s.cid → s.core.trEn = false → s.core.cvSize = 0 → s.cid % 768 ≠ 15 →
      exec (.exact o) s = .next (takeFault { cause := 0x05, addr := w, det1 := 6 }
        (s.now fun c => { commitRegion c with committed := true, lastEcc := c.lastEcc }))) ∧
    (xValid s x = true → xOwner s x = s.cid →
      ((r.state = 1 ∨ r.state = 2) → s.core.lines = [] → (∀ m, m ≠ s.cid → (s.coreAt m).lines = []) →
        (∃ t, exec (.exact o) s = .next t ∧ replica t x n = { r with state := 2, wver := xCver s x } ∧ keeps t n ∧
          xRoster t x = xRoster s x + 1 ∧ t.core.pc = s.core.next ∧ t.core.rpc = s.core.next) ∧
        ∃ t, exec (.exretire o) s = .next t ∧
          replica t x n = (if r.state = 2 ∧ (xJroster s x).getLsbD n = true then { r with state := 3 } else Replica.empty) ∧ keeps t n ∧
          xRoster t x = xRoster s x + 1 ∧ t.core.pc = s.core.next ∧ t.core.rpc = s.core.next) ∧
      (s.core.Full o.b → s.core.Writable o.d →
        let b := s.core.s o.b.toNat
        let core := (b.extractLsb' 0 12).toNat
        let wobj := (b.extractLsb' 12 23).toNat
        let is : Prop := wobj ≠ 0 ∧ (readEntry s wobj).v = true ∧ (readEntry s wobj).xrep = true ∧ (readEntry s wobj).xname = x
        let takes : Prop := core < 0xC00 ∧ (s.coreAt core).fencedOff = false
        let refuses (status : Word) : Prop := ∃ t, exec (.exspawn o) s = .next t ∧ (∀ k < 16, replica t x k = replica s x k) ∧
          t.core = ((commitRegion s.core).setS o.d.toNat status).renewed
        (¬ takes → refuses 0x12) ∧ (takes → ¬ is → refuses 0x11) ∧
        (takes → is → (∀ k < 16, (replica s x k).state ≠ 0) → refuses 0x10) ∧
        ∀ j < 16, takes → is → (replica s x j).state = 0 → (∀ k < j, (replica s x k).state ≠ 0) →
          ∃ t, exec (.exspawn o) s = .next t ∧ replica t x j = { core := core, state := 1, wobj := wobj, wver := 0, routed := 0, outst := 0 } ∧
            keeps t j ∧ t.core = ((commitRegion s.core).setS o.d.toNat (BitVec.ofNat 64 j)).renewed) ∧
      (xJoined s x = xJroster s x → (∀ k < 16, (replica s x k).outst = 0) → xShrink s x = 0 →
        ∃ t, exec (.expub o) s = .next t ∧ xCver t x = xCver s x + 1 ∧ xRoster t x = xRoster s x + 1 ∧ xJroster t x = 0 ∧ xHanded t x = 0 ∧
          xJoined t x = 0 ∧ (∀ k < 16, replica t x k = if (replica s x k).state = 4 then Replica.empty else { replica s x k with routed := 0 }) ∧
          t.core.pc = s.core.next ∧ t.core.rpc = s.core.next))) ∧
  (∀ (s : State) (o : RArgs), s.core.Calm → s.core.Settled → s.core.Full o.a →
    let w := s.core.s o.a.toNat
    let x := w.extractLsb' 0 16
    let n := (w.extractLsb' 16 4).toNat
    let k := (w.extractLsb' 20 32).setWidth 64
    let r := replica s x n
    let keeps (t : State) : Prop := ∀ j < 16, j ≠ n → replica t x j = replica s x j
    ExpertHome s x → xValid s x = true → k.toNat ≤ r.outst.toNat →
    (o.b = 0 → (r.state = 2 ∨ r.state = 3) →
      ∃ t, exec (.exjoin o) s = .next t ∧ replica t x n = { r with outst := r.outst - k } ∧ keeps t ∧ t.core = (commitRegion s.core).renewed) ∧
    (o.b ≠ 0 → s.core.Full o.b → s.core.lines = [] → r.outst = k → (xJoined s x).getLsbD n = false → joinAreaOk s x = true →
      let p := s.core.s o.b.toNat
      let len := xPlen s x
      let dst := xJobj s x + BitVec.ofNat 64 (len * n)
      len = 64 → s.OwnScratch p 64 → s.ecc = [] → dst.getLsbD 63 = false → dst.toNat % 64 = 0 →
      ∀ y, walk s (objId dst) (objOff dst) 64 .write = .ok y → isLocalDram s y.phys = true → y.phys % 64 = 0 → isHeader s y.phys = false →
        (y.phys + 64 ≤ expertAddr s x ∨ expertAddr s x + 1024 ≤ y.phys) →
        let joins (i : Instr) (final : Bool) : Prop := ∃ t, exec i s = .next t ∧ physBlock t y.phys = physBlock s (s.ownPlace p) ∧
          replica t x n = { r with outst := 0, state := if final then 4 else r.state } ∧ keeps t ∧
          xJoined t x = xJoined s x ||| (1#16 <<< n) ∧ xHanded t x = (if final then xHanded s x ||| (1#16 <<< n) else xHanded s x) ∧
          t.core.pc = s.core.next ∧ t.core.rpc = s.core.next
        (r.state = 2 → joins (.exjoin o) false) ∧ (r.state = 3 → joins (.exjoinF o) true)))

/-- R401, R407: SKIPSET and SKIPCLR commit first; a clear of another step than the flag's changes nothing. R402 to R406: OPTA and
OPTW on ranges of the own scratchpad. With the step's skip flag set they commit and write nothing. Else OPTA writes the new
parameters, and stages the new moments and their largest magnitudes; OPTW encodes staged moments as C8 codes under their maxima,
tags their blocks, and writes the maxima. -/
def Obligations.Optimizer : Prop :=
  (∀ (s : State) (o : RArgs), s.core.Calm → s.core.Settled → s.core.Full o.a →
    let step := (s.core.s o.a.toNat).extractLsb' 0 32
    exec (.skipset o) s = .next { s.now (fun c => (commitRegion c).renewed) with pkg := { s.pkg with skipStep := step, skipFlag := true } } ∧
    exec (.skipclr o) s = .next { s.now (fun c => (commitRegion c).renewed) with
      pkg := if s.pkg.skipStep = step then { s.pkg with skipFlag := false } else s.pkg }) ∧
  (∀ (s : State) (o : RArgs), s.core.Calm → s.core.Settled → s.core.Full o.a → s.core.Full o.b → s.ecc = [] → s.Canonical → s.core.lines = [] →
    s.core.image = [] → s.OwnTurn → (∀ e ∈ s.core.outbox, e.posts (homeOf (scratch s s.cid 0)) = false) →
    let step := (s.core.s o.b.toNat).extractLsb' 0 32
    let own (a : Word) (n : Nat) : Prop := a.extractLsb' 60 4 = 9 ∧ a.toNat % 8 = 0 ∧ (a.extractLsb' 0 60).toNat + n ≤ 0xD8000
    let g := s.ownPlace (s.core.s o.a.toNat)
    let d (k : Nat) : Word := physWord s (g + 8 * k)
    let word (t : State) (a : Word) (i : Nat) : Nat := physNat t (s.ownPlace a + 4 * i) 4
    let apart (a : Word) (n : Nat) (b : Word) (m : Nat) : Prop := a.toNat + n ≤ b.toNat ∨ b.toNat + m ≤ a.toNat
    s.cid < 3072 → own (s.core.s o.a.toNat) 64 → (s.core.s o.a.toNat).toNat % 64 = 0 → (∀ k < 6, (d k).toNat % 64 = 0) →
    own (d 0) 8192 → own (d 1) 8192 → own (d 2) 2048 → own (d 3) 2048 → own (d 4) 8 → own (d 5) 16448 → own s.core.optH 64 →
    (s.pkg.skipFlag = true → s.pkg.skipStep = step →
      exec (.opta o) s = .next (s.now fun c => (commitRegion c).renewed) ∧ exec (.optw o) s = .next (s.now fun c => (commitRegion c).renewed)) ∧
    (¬ (s.pkg.skipFlag = true ∧ s.pkg.skipStep = step) →
      (apart (d 0) 8192 (d 5) 16448 →
        let h (off : Nat) : Nat := word s s.core.optH (off / 4)
        let mul (a b : Nat) : Nat := (fmtF32.mul .rne a b).1
        let fma (a b c : Nat) : Nat := (fmtF32.fma .rne false false a b c).1
        let code (a : Word) (i : Nat) : Nat := (s.core.c8.toList.getD (physGet s (s.ownPlace a + i)).toNat 0).toNat
        let m' (i : Nat) : Nat := fma (h 0x0C) (mul (code (d 2) i) (word s (d 4) 0)) (mul (h 0x14) (word s (d 1) i))
        let v' (i : Nat) : Nat :=
          fma (h 0x10) (mul (code (d 3) i) (word s (d 4) 1)) (mul (h 0x28) (mul (word s (d 1) i) (word s (d 1) i)))
        let u (i : Nat) : Nat :=
          (fmtF32.div .rne (mul (m' i) (h 0x20)) (fmtF32.add .rne (fmtF32.sqrt .rne (mul (v' i) (h 0x24))).1 (h 0x18)).1).1
        ∃ t, exec (.opta o) s = .next t ∧ t.core = (commitRegion s.core).renewed ∧
          ∀ i < 2048, word t (d 5) i = m' i ∧ word t (d 5) (2048 + i) = v' i ∧
            word t (d 0) i = (fmtF32.fma .rne true false (h 0x08) (fma (h 0x1C) (word s (d 0) i) (u i)) (word s (d 0) i)).1 ∧
            word t (d 5) 4096 = optMax ((List.range 2048).map m') ∧ word t (d 5) 4097 = optMax ((List.range 2048).map v')) ∧
      (apart (d 2) 2048 (d 3) 2048 → apart (d 2) 2048 (d 4) 8 → apart (d 3) 2048 (d 4) 8 →
        let table := s.core.c8.toList.map (·.toNat)
        let a (k : Nat) : Nat := word s (d 5) (4096 + k)
        let code (a x : Nat) : Byte :=
          if (fmtF32.read a).isNan ∨ fmtF32.read a = .inf false ∨ fmtF32.read a = .inf true then 0
          else BitVec.ofNat 8 (encodeCode table (if a % 2 ^ 31 = 0 then 0 else (fmtF32.div .rne x a).1)).1
        ∃ t, exec (.optw o) s = .next t ∧ t.core = (commitRegion s.core).renewed ∧
          (∀ i < 2048, physGet t (s.ownPlace (d 2) + i) = code (a 0) (word s (d 5) i) ∧
            physGet t (s.ownPlace (d 3) + i) = code (a 1) (word s (d 5) (2048 + i)) ∧
            physTag t (s.ownPlace (d 2) + i) = 0x7F_7F7F_7F0E ∧ physTag t (s.ownPlace (d 3) + i) = 0x7F_7F7F_7F0E) ∧
          word t (d 4) 0 = a 0 ∧ word t (d 4) 1 = a 1)))

/-! ### Steps of other agents -/

/-- R58, R255 to R258: a message that arrives at a valid channel goes into its lowest free buffer slot, whose USED bit is set,
PEND rises and HEAD names it where none waited; one for a channel not valid goes back to its sender, and stands refused at the
head of its outbox, behind an entry that a freeze of its sender has reported. HOLD and READY arriving set the channel's bits.
R341, R347 to R349: a push that arrives takes the bottom of a deque that has room, and waits else; a deferred push likewise. That
an outbox's push holds its place while it is under way, so that no other takes it, is the model's reading (log 44). A decrement
whose block names its home takes the amount off the counter; one that brings it from above zero to zero pushes the block's record,
one that brings it below zero queues a packet of cause 0x10 and pushes nothing; a block that names another home sends the
decrement back. A sender that is idle, or waits at a commit point, freezes at once on its refused entry; which waits those are is
the model's reading (log 19). -/
def Obligations.Arrivals : Prop :=
  (∀ (s : State) (n : Nat), s.Canonical →
    (∀ (sender src dst ch j : Nat) (bytes : List Byte) (by_ : Issuer), packetAt s n = some (.msg sender src dst ch bytes none by_) → dst < 3072 →
      ch < 64 → bytes.length ≤ 64 →
      let w := chWord s dst ch
      (chV w = true → j < 4 → (chUsed w).getLsbD j = false → (∀ i < j, (chUsed w).getLsbD i = true) → chPend w < 7 →
        (∀ m ∈ (s.coreAt dst).buffered, ¬ (m.ch = ch ∧ m.slot = j)) →
        ∃ t, exec (.messageDelivery n) s = .next t ∧ t.net = s.net.eraseIdx n ∧ chUsed (chWord t dst ch) = chUsed w ||| (1#4 <<< j) ∧
          chPend (chWord t dst ch) = chPend w + 1 ∧ chHead (chWord t dst ch) = (if chPend w = 0 then j else chHead w) ∧
          chV (chWord t dst ch) = true ∧ chDepth (chWord t dst ch) = chDepth w ∧
          (∀ k < 64, physGet t (scratch s dst (0xDC000 + 256 * ch + 64 * j) + k) = bytes.getD k 0) ∧
          (t.coreAt dst).buffered = (s.coreAt dst).buffered ++
            [{ ch := ch, slot := j, sender := sender, len := bytes.length, cairn := none, asked := false, grant := none, started := false }]) ∧
      (chV w = false → src ≠ 0xFFF → exec (.messageDelivery n) s = .next { s with
        net := s.net.eraseIdx n ++ [.msgRefused src ⟨.msg dst ch bytes, by_, true, true, false, false⟩] })) ∧
    (∀ (src : Nat) (e : OutEntry),
      let p := (s.coreAt src).phase
      let held : Prop := p = .idle ∨ p = .wait .expert ∨ p = .wait .leave ∨ (∃ scope ctx, p = .wait (.crest scope ctx)) ∨
        ∃ cairn excl try_ d slot, p = .wait (.acquire cairn excl try_ d slot)
      let freezes (i : Instr) (cause : Byte) : Prop := held → (s.coreAt src).cvSize = 0 → ∃ t, exec i s = .next t ∧
        (t.coreAt src).phase = .frozen ∧ (t.coreAt src).frozenCause = cause ∧ (t.coreAt src).pc = (s.coreAt src).pc ∧
        (t.coreAt src).rpc = (s.coreAt src).rpc ∧ (t.coreAt src).outbox = { e with refused := true } :: (s.coreAt src).outbox
      (∀ dst ch bytes, e.cargo = .msg dst ch bytes → packetAt s n = some (.msgRefused src e) → freezes (.messageRefusal n) 0x0F) ∧
      ∀ ea a m, e.cargo = .dec ea a m → packetAt s n = some (.decRefused src e) → freezes (.decRefusal n) 0x06) ∧
    (∀ (src : Nat) (e : OutEntry), (s.coreAt src).phase ≠ .idle → (∀ w, (s.coreAt src).phase ≠ .wait w) →
      let c := s.coreAt src
      let back (outbox : List OutEntry) : Prop :=
        let t : State := ({ s with net := s.net.eraseIdx n } : State).modCore src fun c => { c with outbox := outbox }
        (packetAt s n = some (.msgRefused src e) → exec (.messageRefusal n) s = .next t) ∧
        (packetAt s n = some (.decRefused src e) → exec (.decRefusal n) s = .next t)
      (c.frozenEntry = false → back ({ e with refused := true } :: c.outbox)) ∧
      ∀ x rest, c.phase = .frozen → c.frozenEntry = true → c.outbox = x :: rest → x.refused = true →
        back (x :: { e with refused := true } :: rest)) ∧
    ∀ (src dst ch : Nat) (v : Bool), dst < 3072 → ch < 64 →
      let w := chWord s dst ch
      (packetAt s n = some (.hold src dst ch v) → ∃ t, exec (.holdArrival n) s = .next t ∧ t.net = s.net.eraseIdx n ∧
        chHold (chWord t dst ch) = v ∧ chReady (chWord t dst ch) = chReady w ∧ chPend (chWord t dst ch) = chPend w) ∧
      (packetAt s n = some (.ready src dst ch v) → ∃ t, exec (.readyArrival n) s = .next t ∧ t.net = s.net.eraseIdx n ∧
        chReady (chWord t dst ch) = v ∧ chHold (chWord t dst ch) = chHold w ∧ chPend (chWord t dst ch) = chPend w)) ∧
  (∀ (s : State) (n : Nat), s.Canonical →
    let pushed (t : State) (k : Nat) (r : TaskRecord) (x : Carried) : Prop :=
      (t.coreAt k).dqBot = (s.coreAt k).dqBot + 1 ∧ (t.coreAt k).dqTop = (s.coreAt k).dqTop ∧ dqRecord t k (s.coreAt k).dqBot = r ∧
        dqCarried (t.coreAt k) (s.coreAt k).dqBot = x
    (∀ (src dst : Nat) (r : TaskRecord) (x : Carried), packetAt s n = some (.push src dst r x) → dst < 3072 →
      let room : Prop := if x.origin = 5 then dequeTakes s dst = true else (s.coreAt dst).dqBot - (s.coreAt dst).dqTop < 256
      (¬ room → exec (.taskPush n) s = .next s) ∧
      (room →
        ∃ t, exec (.taskPush n) s = .next t ∧ t.net = s.net.eraseIdx n ∧ pushed t dst r x)) ∧
    (∀ (k : Nat) (r : TaskRecord) (rest : List TaskRecord), k < 3072 → (s.coreAt k).pushBuf = r :: rest →
      dequeTakes s k = true →
      ∃ t, exec (.deferredPush k) s = .next t ∧ (t.coreAt k).pushBuf = rest ∧ pushed t k r (Carried.plain 2)) ∧
    ∀ (src off : Nat) (ea amount : Word) (by_ : Issuer),
      let home := (ea.extractLsb' 32 12).toNat
      let p := scratch s home off
      packetAt s n = some (.dec src ea p amount by_) → home < 3072 → off + 64 ≤ 0xD8000 → (s.coreAt home).pushBuf = [] →
      dequeTakes s home = true →
      let old := physWord s p
      let new := old - amount
      (physNat s (p + 40) 2 % 2 ^ 12 ≠ home → exec (.decAtHome n) s = .next { s with
        net := s.net.eraseIdx n ++ [.decRefused src ⟨.dec ea p amount, by_, true, true, false, false⟩] }) ∧
      (physNat s (p + 40) 2 % 2 ^ 12 = home → ∃ t, exec (.decAtHome n) s = .next t ∧ t.net = s.net.eraseIdx n ∧ physWord t p = new ∧
        (0 < old.toInt → new = 0 →
          pushed t home ⟨physWord s (p + 8), physWord s (p + 16), physWord s (p + 24), physWord s (p + 32)⟩ (Carried.plain 2)) ∧
        (¬ (0 < old.toInt ∧ new = 0) → (t.coreAt home).dqBot = (s.coreAt home).dqBot ∧
          ∀ a, (a < p ∨ p + 8 ≤ a) → cellGet t.mem a = cellGet s.mem a) ∧
        (0 ≤ new.toInt → (t.coreAt home).packets = (s.coreAt home).packets) ∧
        (new.toInt < 0 → ∃ q, (t.coreAt home).packets = (s.coreAt home).packets ++ [q] ∧ q.core = home ∧ q.cause = 0x10 ∧ q.addr = ea ∧
          q.det2 = new)))

/-- R49, R66, R148, R255, R300: the outbox leaves from its head, once it is committed and its destination has room; a posted
atomic is performed at its home; data that returns fills its register; a fault packet leaves its core for the channel 63 of the
core that handles it. What the home's L2 slice shows of an atomic is the model's reading (log 7). -/
def Obligations.PacketsLeaving : Prop :=
  (∀ (s : State) (e : OutEntry) (rest : List OutEntry) (k : Nat), (s.coreAt k).outbox = e :: rest → e.committed = true → e.refused = false →
    let leaves (t : Transit) : Prop := exec (.outboxEntryLeave k) s = .next
      { s.modCore k (fun c => { c with outbox := rest }) with net := s.net ++ [t] }
    (∀ dst ch bytes, e.cargo = .msg dst ch bytes → dst ≠ 0xFFF →
      (channelFull s dst ch = false → leaves (.msg k k dst ch bytes none e.by_)) ∧
      (channelFull s dst ch = true → exec (.outboxEntryLeave k) s = .next s)) ∧
    (∀ dst ch v, e.cargo = .hold dst ch v → leaves (.hold k dst ch v)) ∧ (∀ dst ch v, e.cargo = .ready dst ch v → leaves (.ready k dst ch v)) ∧
    (∀ op bytes ea p b, e.cargo = .amo op bytes ea p b → ea.getLsbD 63 = true → leaves (.amo k op bytes p b)) ∧
    (∀ ea p m, e.cargo = .dec ea p m → leaves (.dec k ea p m e.by_)) ∧
    (∀ dst r x, e.cargo = .push dst r x → dequeTakes s dst = true → leaves (.push k dst r x))) ∧
  (∀ (s : State) (n src bytes p : Nat) (op : AmoOp) (b : Word), s.Canonical → packetAt s n = some (.amo src op bytes p b) → (bytes = 4 ∨ bytes = 8) →
    kindOf p = 1 → packageOf p = s.pkg.pkgid.toNat → p % bytes = 0 → blockOf p ∉ s.ecc →
    let w := 8 * bytes
    let old := physNat s p bytes
    let v := b.toNat % 2 ^ w
    let less := (BitVec.ofNat w old).toInt < (BitVec.ofNat w v).toInt
    ∃ t, exec (.atomicAtHome n) s = .next t ∧ t.net = s.net.eraseIdx n ∧ SameBytesBut p bytes s t ∧ t.core = s.core ∧
      physNat t p bytes = match op with
        | .add => (old + v) % 2 ^ w
        | .and => old &&& v
        | .or => old ||| v
        | .xor => old ^^^ v
        | .min => if less then old else v
        | .max => if less then v else old
        | .minu => min old v
        | .maxu => max old v
        | .swap => v
        | .cas => if old = 0 then v else old) ∧
  (∀ (s : State) (k n : Nat) (f : Inflight), (s.coreAt k).inflight[n]? = some f → f.vdest = [] →
    exec (.dataReturn k n) s = .next (s.modCore k fun c =>
      { (match f.sdest with
        | some (d, v) => c.setS d v
        | none => c) with inflight := c.inflight.eraseIdx n })) ∧
  ∀ (s : State) (k : Nat) (p : Packet) (rest : List Packet), (s.coreAt k).packets = p :: rest → k % 16 ≠ 15 →
    (takesMessage s (k / 16 * 16 + 15) 63 = true → ∃ t, exec (.faultPacketSend k) s = .next t ∧ (t.coreAt k).packets = rest ∧
      (t.coreAt (k / 16 * 16 + 15)).buffered.getLast?.map (fun m => (m.ch, m.sender, m.len)) = some (63, k, p.bytes.length)) ∧
    (takesMessage s (k / 16 * 16 + 15) 63 = false → exec (.faultPacketSend k) s = .next s)

/-- R306, R310 to R312: a cairn's home. A free cairn is granted, and the home records the holder; one held exclusively answers
busy to a try, and queues any other request and counts it in WCNT; a last releaser that has no slot for it surrenders, and HCNT
rises; a release told to the home raises RCNT, records LR and frees the cairn or lends it; a withdrawn request leaves the queue; a
request that the queue has refused is sent again. While the cairn's block holds an uncorrectable error a message's request waits,
which is the model's reading (log 8). -/
def Obligations.CairnHome : Prop :=
  ∀ (s : State) (n p k : Nat) (cairn : Word), s.Canonical → kindOf p = 0 → p % 64 = 0 → k < 3072 → reachable s p = true →
    (∀ (m : Nat × Nat) (excl try_ : Bool), blockOf p ∈ s.ecc → packetAt s n = some (.acquire cairn p ⟨k, some m⟩ excl try_) →
      exec (.homeAcquire n) s = .next s) ∧ (blockOf p ∉ s.ecc →
    (∀ (excl try_ : Bool), packetAt s n = some (.acquire cairn p ⟨k, none⟩ excl try_) →
      (cairnMode s p = 0 → cairnWcnt s p = 0 → ∃ t, exec (.homeAcquire n) s = .next t ∧
        t.net = s.net.eraseIdx n ++ [.grant cairn p k 0 (cairnHcnt s p)] ∧ cairnMode t p = (if excl then 2 else 3) ∧
        cairnHolder t p = (if excl then globalNumber s k % 2 ^ 22 else 0) ∧ cairnCount t p = (if excl then 0 else 1) ∧ t.waiters = s.waiters) ∧
      (cairnMode s p = 2 → try_ = true → exec (.homeAcquire n) s = .next { s with net := s.net.eraseIdx n ++ [.grant cairn p k 1 0] }) ∧
      (cairnMode s p = 2 → try_ = false → s.waiters = [] → ∃ t, exec (.homeAcquire n) s = .next t ∧ t.net = s.net.eraseIdx n ∧
        t.waiters = [⟨cairn, p, ⟨k, none⟩, excl⟩] ∧ cairnWcnt t p = 1 ∧ cairnMode t p = 2)) ∧
    (∀ (r : Nat) (party : Party) (excl try_ : Bool), packetAt s n = some (.surrender cairn p r party excl try_) → slotNamed (s.coreAt r) cairn = none →
      ∃ t, exec (.surrender n) s = .next t ∧ t.net = s.net.eraseIdx n ++ [.acquire cairn p party excl try_] ∧ cairnMode t p = 0 ∧
        cairnHcnt t p = cairnHcnt s p + 1 ∧ t.core = s.core ∧ t.others = s.others) ∧
    (∀ (eager : Bool) (lrel : Word), packetAt s n = some (.release cairn p k eager lrel) → s.waiters = [] → cairnMode s p = 2 →
      ∃ t, exec (.releaseAtHome n) s = .next t ∧ t.net = s.net.eraseIdx n ∧ cairnMode t p = (if eager then 0 else 1) ∧
        cairnLR t p = globalNumber s k % 2 ^ 22 ∧ physNat t (p + 16) 8 = (physNat s (p + 16) 8 + 1 + lrel.toNat) % 2 ^ 64) ∧
    (∀ (excl : Bool), s.net = [.withdraw cairn p k] → s.waiters = [⟨cairn, p, ⟨k, none⟩, excl⟩] →
      ∃ t, exec (.acquireWithdrawal k) s = .next t ∧ t.net = [] ∧ t.waiters = [] ∧ cairnWcnt t p = 0 ∧ cairnMode t p = cairnMode s p) ∧
    ∀ (excl try_ : Bool) (d slot : Nat), (s.coreAt k).phase = .wait (.acquire cairn excl try_ d slot) → s.net = [] → s.waiters = [] →
      cairnPhys s cairn = some p → exec (.acquireRetry k) s = .next { s with net := [.acquire cairn p ⟨k, none⟩ excl try_] })

/-- R58, R156, R269, R310, R320, R324, R325: what ends a wait of the core whose turn it is: the time of a SLEEP, a triggered
monitor, the time of a WAITT that no copy misses, a grant (a TRYACQ.X then writes 0), a busy answer (it writes 1), a crest
release, which lands in CRSC. A contribution joins its context, of the core's cluster, mesa or package: the magnitude is the
larger one, NaN and infinity stick, the count rises; the last one releases every participant with the round's scale and flag, and
the context is idle. A message's grant makes its channel eligible, where the message heads it. -/
def Obligations.WaitsEnding : Prop :=
  (∀ (s : State), s.core.Calm → s.core.trEn = false →
    let c := s.core
    (∀ u : Word, c.phase = .wait (.sleep u) → u.toNat ≤ s.pkg.cyc.toNat → exec (.sleepExpiry s.cid) s = .next (s.now Core.stepped)) ∧
    (c.phase = .wait .mwait → (∀ m ∈ s.monitors, m.core = s.cid → m.hit = true) →
      exec (.monitorTrigger s.cid) s = .next { s.now Core.stepped with monitors := s.monitors.filter (·.core ≠ s.cid) }) ∧
    (∀ u trap counted, c.phase = .wait (.waitt u trap counted) → u.toNat ≤ s.pkg.cyc.toNat →
      (∀ q ∈ c.queues.toList, ∀ o ∈ q.ops, u.toNat < o.promise.toNat) → exec (.waittExpiry s.cid) s = .next (s.now Core.stepped)) ∧
    (∀ n cairn p epoch excl try_ d slot, packetAt s n = some (.grant cairn p s.cid 0 epoch) → c.phase = .wait (.acquire cairn excl try_ d slot) →
      withdrawing s s.cid = false → slot < 8 → d < 32 → ∃ t, exec (.acquireGrant n) s = .next t ∧ t.net = s.net.eraseIdx n ∧ t.core.pc = c.next ∧ t.core.rpc = c.next ∧
        t.core.phase = c.ready ∧ (t.core.slot slot).hold = (if excl then .exclusive else .shared) ∧ (t.core.slot slot).epoch = epoch ∧
        (t.core.slot slot).cairn = (c.slot slot).cairn ∧ (try_ = true → d ≠ 0 → t.core.s d = 0)) ∧
    (∀ n cairn p epoch excl d slot, packetAt s n = some (.grant cairn p s.cid 1 epoch) → c.phase = .wait (.acquire cairn excl true d slot) →
      withdrawing s s.cid = false → d < 32 →
      exec (.acquireGrant n) s = .next { s with net := s.net.eraseIdx n, core := (c.setS d 1).renewed }) ∧
    (∀ n scope ctx scale nf, packetAt s n = some (.crsc s.cid scope ctx scale nf) → c.phase = .wait (.crest scope ctx) →
      exec (.crscLanding n) s = .next { s with
        net := s.net.eraseIdx n
        core := Core.renewed { c with crscScale := scale, crscNf := nf, crscCtx := BitVec.ofNat 4 ctx, crscValid := true } })) ∧
  (∀ (s : State) (n core scope ctx : Nat) (w : Word) (mag : Lane) (nan inf : Bool), packetAt s n = some (.crest core scope ctx w mag nan inf) →
    core < 3072 → scope < 3 → ctx < 16 →
    let old := crestAt s core scope ctx
    let base := if old.isOpen then old else { Crest.idle with isOpen := true, param := w &&& ~~~ 0x3F#64 }
    let grows := (fmtF32.read base.mag.toNat).lt (fmtF32.read mag.toNat)
    let x : Crest := { base with
      mag := if grows then mag else base.mag, nan := base.nan || nan, inf := base.inf || inf, count := base.count + 1,
      parties := base.parties ++ [core] }
    let unknown := x.nan || x.mag = 0x7F80_0000
    ∃ t, exec (.crestContribution n) s = .next t ∧ t.mem = s.mem ∧
      (∀ sc < 3, ∀ c < 16, (sc ≠ scope ∨ c ≠ ctx) → crestAt t core sc c = crestAt s core sc c) ∧
      (x.count ≠ (x.param.extractLsb' 6 12).toNat → t.net = s.net.eraseIdx n ∧ crestAt t core scope ctx = x ∧
        t.pkg.skipFlag = s.pkg.skipFlag) ∧
      (x.count = (x.param.extractLsb' 6 12).toNat → crestAt t core scope ctx = Crest.idle ∧
        t.net = s.net.eraseIdx n ++ x.parties.map fun c =>
          .crsc c scope ctx (if unknown then 0xFF else scaleOf (fmtF32.read x.mag.toNat) (targetEmax (cxTgt x.param))) (unknown || x.inf))) ∧
  ∀ (s : State) (n k ch slot : Nat) (cairn epoch : Word), packetAt s n = some (.msgGrant cairn k ch slot epoch) →
    let w := chWord s k ch
    ∃ t, exec (.messageAcquireGrant n) s = .next t ∧ t.net = s.net.eraseIdx n ∧ t.mem = s.mem ∧
      (∀ m ∈ (t.coreAt k).buffered, m.ch = ch → m.slot = slot → m.started = false →
        ∃ g, m.grant = some g ∧ g.cairn = cairn ∧ g.exclusive = false ∧ g.epoch = epoch) ∧
      ∀ m, chV w = true → chReady w = true → chHold w = false → 0 < chPend w → chHead w = slot → bufferedAt (s.coreAt k) ch slot = some m →
        m.started = false → eligible t k ch = true

/-- R57 to R59, R334 to R338, R352, R353: the choice of a core at a boundary, or idle and woken, in a package without launches:
the only record of its deque, entered with its words, class and origin; the head message of its only eligible channel; else, where
it steals from nobody, nothing. A probe takes its neighbour's bulk record, with origin 3. A yield request past its deadline aborts
the activation and pushes its continuation, with origin 5, onto its home core's deque. That a choice steals in the same step, and
the places in the deque's storage, are the model's reading (log 29). -/
def Obligations.Choice : Prop :=
  (∀ (s : State), (s.core.phase = .boundary ∨ s.core.phase = .idle) → s.core.exroute = none → s.core.stopReq = false →
    (∀ e ∈ s.core.outbox, e.refused = false) → s.core.vacReq = false → s.core.vac = false → s.core.trEn = false → s.pkg.launches = [] →
    let i : Instr := if s.core.phase = .boundary then .activationChoice s.cid else .idleWake s.cid
    ((∀ ch < 64, eligible s s.cid ch = false) →
      (s.core.dqBot = s.core.dqTop → (s.clusterAt (clusterOf s.cid)).defsteal = 0 → exec i s = .next (s.now fun c => { c with phase := .idle })) ∧
      (s.core.dqBot = s.core.dqTop + 1 → (dqCarried s.core s.core.dqTop).holds = [] →
        let r := dqRecord s s.cid s.core.dqTop
        let x := dqCarried s.core s.core.dqTop
        ∃ t, exec i s = .next t ∧ t.mem = s.mem ∧ t.core.pc = r.epc ∧ t.core.rpc = r.epc ∧ t.core.phase = .run ∧ t.core.s 1 = r.w1 ∧
          t.core.s 2 = r.w2 ∧ t.core.s 3 = r.w3 ∧ t.core.s 4 = BitVec.ofNat 64 (0x100 + 2 * x.origin.toNat + if r.lat then 1 else 0) ∧
          t.core.clsLat = r.lat ∧ t.core.clsOrigin = x.origin ∧ t.core.dqTop = t.core.dqBot ∧
          t.core.lrun = (if r.lat then min 255 (s.core.lrun + 1) else 0))) ∧
    ∀ (ch : Nat) (m : Buffered), s.Canonical → s.cid < 3072 → ch < 64 → eligible s s.cid ch = true → (∀ c < 64, c ≠ ch → eligible s s.cid c = false) →
      s.core.dqBot = s.core.dqTop → bufferedAt s.core ch (chHead (chWord s s.cid ch)) = some m → m.grant = none →
      let w := chWord s s.cid ch
      ∃ t, exec i s = .next t ∧ t.core.pc = chEpc s s.cid ch ∧ t.core.rpc = chEpc s s.cid ch ∧ t.core.phase = .run ∧ t.core.clsOrigin = 7 ∧
        t.core.clsLat = chLat w ∧ t.core.s 1 = BitVec.ofNat 64 (2 ^ 63 + 2 ^ 60 + 0xDC000 + 256 * ch + 64 * chHead w) ∧
        t.core.s 2 = BitVec.ofNat 64 m.sender ∧ t.core.s 3 = BitVec.ofNat 64 m.len ∧ t.core.s 4 = BitVec.ofNat 64 ch ∧
        chPend (chWord t s.cid ch) = chPend w - 1 ∧ chUsed (chWord t s.cid ch) = chUsed w ∧
        t.core.act.map (·.msg) = some (some ⟨s.cid, ch, chHead w⟩)) ∧
  (∀ (s : State), s.cid < 3072 → s.core.phase = .idle → s.core.stopReq = false → (∀ e ∈ s.core.outbox, e.refused = false) → s.core.vacReq = false →
    s.core.vac = false → s.core.trEn = false → s.pkg.launches = [] → (∀ ch < 64, eligible s s.cid ch = false) → s.core.dqBot = s.core.dqTop →
    let v := s.cid / 16 * 16 + (s.cid + 1) % 16
    let w := s.coreAt v
    (s.clusterAt (clusterOf s.cid)).defsteal ≠ 0 → w.vac = false → w.dqBot = w.dqTop + 1 → (dqRecord s v w.dqTop).lat = false →
    (dqCarried w w.dqTop).holds = [] →
    let r := dqRecord s v w.dqTop
    ∃ t, exec (.stealProbe s.cid) s = .next t ∧ t.mem = s.mem ∧ t.core.pc = r.epc ∧ t.core.phase = .run ∧ t.core.clsOrigin = 3 ∧ t.core.s 1 = r.w1 ∧
      t.core.s 4 = 0x106 ∧ (t.coreAt v).dqTop = w.dqTop + 1 ∧ (t.coreAt v).dqBot = w.dqBot ∧ t.core.lrun = 0) ∧
  ∀ (s : State) (a : Activation), s.Canonical → s.cid < 3072 → s.core.phase = .run → s.core.act = some a → a.msg = none → s.core.ydl ≠ 0 →
    s.core.ydl.toNat ≤ s.pkg.cyc.toNat → s.core.spared = false → s.core.closing = none → s.core.exroute = none → (s.core.committed = false ∨ s.core.noAbort = false) → s.core.vacReq = false → s.core.cvPos = 0 → s.core.cvSize = 0 → s.core.inflight = [] →
    s.core.rep.state = 0 → (∀ n < 8, (s.core.slot n).valid = false) →
    let h := homeCore s s.cid
    dequeTakes s h = true →
    ∃ t, exec (.yieldDeadline s.cid) s = .next t ∧ t.core.phase = .boundary ∧ t.core.act = none ∧ t.core.ydl = 0 ∧
      t.core.lines = s.core.lines.filter (fun l => !l.unc) ∧ t.core.outbox = s.core.outbox.filter (·.committed) ∧
      (t.coreAt h).dqBot = (s.coreAt h).dqBot + 1 ∧ (dqCarried (t.coreAt h) (s.coreAt h).dqBot).origin = 5 ∧
      dqRecord t h (s.coreAt h).dqBot =
        ⟨(s.core.rpc &&& 0x7FFF_FFFF_FFFF_FFFE#64) ||| (if a.lat then 1 else 0), s.core.s 1, s.core.s 2, s.core.s 3⟩

/-- R328 to R331, R439: a doorbell write joins its queue, or is reported with kind 3 where 16 records wait. The head record is
discarded with a report of kind 2 where it is bad, of kind 4 where its stamp cannot be read; it is read again while the stamp
differs, every 112 cycles, and after the sixteenth read discarded with kind 1. One whose stamp matches is held at a launch
breakpoint with kind 5, and else dispatched: a FLAT launch's slot j starts at index j, and ends at the last index that it reaches;
a SEED launch pushes one record, with origin 4, onto the deque bottom of its first core, and stays in the table while that is
full. A record that has passed its checks and cannot be dispatched yet waits at the head, where a breakpoint enabled meanwhile
holds it. LBGO dispatches or discards a held record; one that cannot be dispatched yet waits too, free of its breakpoint. -/
def Obligations.Launches : Prop :=
  ∀ (s : State) (q : Nat) (r : List Byte) (rest : List (List Byte)), q < 16 →
    let x := launchQueue s q
    let queue (t : State) (y : LaunchQueue) : Prop := launchQueue t q = y ∧ ∀ p < 16, p ≠ q → launchQueue t p = launchQueue s p
    let reports (t : State) (kind seen : Nat) : Prop := t.pkg.services = s.pkg.services ++ [(2, reportBody kind seen q r)]
    let slots := (coreSet s r).length
    let n := lrDimX r * lrDimY r * lrDimZ r
    let empty : LaunchQueue := { records := rest, reads := 0, seen := 0, held := false, first := 0, freed := false, passed := false }
    let launched (t : State) : Prop := ∃ l, t.pkg.launches = [l] ∧ l.number = 0 ∧ l.record = r ∧ l.slots.length = slots ∧ l.members = slots ∧
      ∀ j < slots, l.slots[j]? = some { core := (coreSet s r).getD j 0, next := j,
                                        last := if j < n then ((j + (n - 1 - j) / slots * slots : Nat) : Int) else (j : Int) - slots }
    let seeded (t : State) : Prop :=
      let k := (coreSet s r).headD 0
      let c := s.coreAt k
      if dequeTakes s k = true then
        t.pkg.launches = [] ∧ (t.coreAt k).dqBot = c.dqBot + 1 ∧ (dqCarried (t.coreAt k) c.dqBot).origin = 4 ∧
          dqRecord t k c.dqBot = ⟨lrEpc r ||| (if lrLat r then 1 else 0), lrArgs r, 0, 0⟩
      else (t.coreAt k).dqBot = c.dqBot ∧ ∃ l, t.pkg.launches = [l] ∧ l.number = 0 ∧ l.record = r ∧ l.slots = []
    (s.pkg.bootReady = true → r.length = 64 → (∀ d ∈ s.deferred, d.isHost = false) →
      (x.records.length < 16 → ∃ t, exec (.launchPost q r) s = .next t ∧ queue t { x with records := x.records ++ [r] } ∧
        t.pkg.services = s.pkg.services) ∧
      (16 ≤ x.records.length → ∃ t, exec (.launchPost q r) s = .next t ∧ queue t x ∧ reports t 3 0)) ∧
    (x.records = r :: rest → x.held = true → canDispatch s r = false → ∃ t, exec (.lbgoDispatch (BitVec.ofNat 64 q)) s = .next t ∧
      queue t { x with held := false, freed := true } ∧ t.pkg.launches = s.pkg.launches) ∧
    (x.records = r :: rest → x.held = false → x.freed = false → x.passed = true →
      let u := retireLaunches (pushSeeds s)
      reportWaits u q = false → launchBreak u q r = none → canDispatch u r = false →
        ∃ t, exec (.launchAdmission q) s = .next t ∧ queue t x ∧ t.pkg.launches = u.pkg.launches) ∧
    (s.pkg.launches = [] → (∀ m ∈ s.pkg.services, m.1 ≠ 2) → x.records = r :: rest →
      (x.held = false → x.freed = true → badRecord s r = false →
        (lrSeed r = false → ∃ t, exec (.launchAdmission q) s = .next t ∧ queue t empty ∧ launched t ∧ t.pkg.services = s.pkg.services) ∧
        (lrSeed r = true → s.Canonical →
          ∃ t, exec (.launchAdmission q) s = .next t ∧ queue t empty ∧ seeded t ∧ t.pkg.services = s.pkg.services)) ∧
      (x.held = false → x.freed = false → x.passed = true → badRecord s r = false →
        (∀ b, launchBreak s q r = some b → ∃ t, exec (.launchAdmission q) s = .next t ∧ queue t { x with held := true } ∧ reports t 5 b ∧
          t.pkg.launches = []) ∧
        (launchBreak s q r = none →
          (lrSeed r = false → ∃ t, exec (.launchAdmission q) s = .next t ∧ queue t empty ∧ launched t ∧ t.pkg.services = s.pkg.services) ∧
          (lrSeed r = true → s.Canonical →
            ∃ t, exec (.launchAdmission q) s = .next t ∧ queue t empty ∧ seeded t ∧ t.pkg.services = s.pkg.services))) ∧
      (x.held = false → x.freed = false → x.passed = false → x.reads = 0 →
        (badRecord s r = true → ∃ t, exec (.launchAdmission q) s = .next t ∧ queue t empty ∧ reports t 2 0 ∧ t.pkg.launches = []) ∧
        (badRecord s r = false →
          (readStamp s r = none → ∃ t, exec (.launchAdmission q) s = .next t ∧ queue t empty ∧ reports t 4 0 ∧ t.pkg.launches = []) ∧
          (∀ w, readStamp s r = some w → w ≠ lrStamp r → ∃ t, exec (.launchAdmission q) s = .next t ∧
            queue t { x with reads := 1, seen := BitVec.ofNat 32 w, first := s.pkg.cyc } ∧ t.pkg.services = s.pkg.services ∧ t.pkg.launches = []) ∧
          (readStamp s r = some (lrStamp r) →
            (∀ b, launchBreak s q r = some b → ∃ t, exec (.launchAdmission q) s = .next t ∧ queue t { x with held := true } ∧ reports t 5 b ∧
              t.pkg.launches = []) ∧
            (launchBreak s q r = none →
              (lrSeed r = false → ∃ t, exec (.launchAdmission q) s = .next t ∧ queue t empty ∧ launched t ∧ t.pkg.services = s.pkg.services) ∧
              (lrSeed r = true → s.Canonical →
                ∃ t, exec (.launchAdmission q) s = .next t ∧ queue t empty ∧ seeded t ∧ t.pkg.services = s.pkg.services))))) ∧
      (∀ w, x.held = false → x.freed = false → x.passed = false → 0 < x.reads → 112 * x.reads ≤ (s.pkg.cyc - x.first).toNat → readStamp s r = some w → w ≠ lrStamp r →
        (x.reads < 15 → ∃ t, exec (.stampRecheck q) s = .next t ∧ queue t { x with reads := x.reads + 1, seen := BitVec.ofNat 32 w } ∧
          t.pkg.services = s.pkg.services) ∧
        (15 ≤ x.reads → ∃ t, exec (.stampRecheck q) s = .next t ∧ queue t empty ∧ reports t 1 w)) ∧
      (x.held = true →
        (∃ t, exec (.lbgoDrop (BitVec.ofNat 64 (q + 256))) s = .next t ∧ queue t empty ∧ t.pkg.launches = []) ∧
        (badRecord s r = false →
          (lrSeed r = false → ∃ t, exec (.lbgoDispatch (BitVec.ofNat 64 q)) s = .next t ∧ queue t empty ∧ launched t) ∧
          (lrSeed r = true → s.Canonical → ∃ t, exec (.lbgoDispatch (BitVec.ofNat 64 q)) s = .next t ∧ queue t empty ∧ seeded t))))

/-- R78, R434, R436, R437, R272: RESUME, RESTART and KILL of a core that is not frozen set ERR 1. Of one frozen in its activation,
RESUME goes on where it stands, RESTART aborts the region and goes on at RPC, KILL aborts it and reaches a boundary; where an
instruction has committed and aborts wait for it, RESTART and KILL let it go on, and take effect once it has retired: the model's
reading of R146, R235 and R403 (log 19), since R78 itself names no such wait; where the freeze has reported a refused outbox
entry, RESUME sends it again and KILL discards it, with the activation only if that one issued it. STOP stops an idle core with a
packet of cause 0x0A and DET1 0x10, and asks any other; CANCEL withdraws. The equations say that each command triggers the core's
monitor (R324). MCFGM takes a mode word with no reserved format on a frozen core; CXCANCEL releases an open round with SCALE 0xFF
and NF 1. What becomes of a core frozen at a boundary is the model's reading (log 22). -/
def Obligations.SupervisorCommands : Prop :=
  ∀ (s : State), s.core.trEn = false →
    let c := s.core
    let k := s.cid
    let errs (i : Instr) (code : BitVec 8) : Prop := exec i s = .next (s.now fun c => { c with dstatErr := code })
    let told : State := { s with monitors := s.monitors.map fun m => if m.core = k then { m with hit := true } else m }
    let goes (i : Instr) (f : Core → Core) : Prop := exec i s = .next (told.now f)
    let stops (i : Instr) : Prop := ∃ t p, exec i s = .next t ∧ t.core.phase = .stopped ∧ t.core.stopReq = false ∧ t.core.packets = c.packets ++ [p] ∧
      p.cause = 0x0A ∧ p.det1 = 0x10 ∧ p.core = k ∧ t.core.lines = c.lines ∧ t.mem = s.mem
    (∀ i ∈ [Instr.resume k, .restart k, .kill k],
      (c.phase ≠ .frozen → c.phase ≠ .stopped → goes i fun c => { c with dstatErr := 1 }) ∧
      (c.phase = .stopped → c.exroute = none → goes i fun c => { c with phase := .boundary })) ∧
    (∀ a, c.phase = .frozen → c.act = some a → a.msg = none → c.frozenWait = none → c.ydl = 0 → c.cvPos = 0 → c.cvSize = 0 → c.inflight = [] →
      c.rep.state = 0 → c.exroute = none →
      (c.frozenEntry = false → goes (.resume k) fun c => { c with phase := .run }) ∧
      (∀ e rest, c.frozenEntry = true → c.outbox = e :: rest → e.refused = true →
        (goes (.resume k) fun c => { c with phase := .run, outbox := { e with refused := false } :: rest, frozenEntry := false }) ∧
        (c.actNo ≠ e.by_.actNo → goes (.kill k) fun c => { c with phase := .run, outbox := rest, frozenEntry := false }) ∧
        (c.actNo = e.by_.actNo → (c.committed = false ∨ c.noAbort = false) → (∀ n < 8, (c.slot n).hold = .none) → ∃ t, exec (.kill k) s = .next t ∧ t.core.phase = .boundary ∧
          t.core.act = none ∧ t.core.lines = c.lines.filter (fun l => !l.unc) ∧ t.core.outbox = rest.filter (·.committed) ∧ t.mem = s.mem)) ∧
      (c.frozenEntry = false → c.committed = true → c.noAbort = true →
        (goes (.restart k) fun c => { c with phase := .run, closing := some .restart }) ∧
        goes (.kill k) fun c => { c with phase := .run, closing := some .kill }) ∧
      ((c.committed = false ∨ c.noAbort = false) → ∃ t, exec (.restart k) s = .next t ∧ t.core.phase = .run ∧ t.core.pc = c.rpc ∧ t.core.rpc = c.rpc ∧ t.core.act = c.act ∧
        t.core.lines = c.lines.filter (fun l => !l.unc) ∧ t.core.outbox = c.outbox.filter (·.committed) ∧ t.core.sregs = c.sregs ∧
        t.core.vregs = c.vregs ∧ t.mem = s.mem ∧ t.tags = s.tags) ∧
      (c.frozenEntry = false → (c.committed = false ∨ c.noAbort = false) → (∀ n < 8, (c.slot n).hold = .none) →
        ∃ t, exec (.kill k) s = .next t ∧ t.core.phase = .boundary ∧ t.core.act = none ∧ t.core.ydl = 0 ∧
          t.core.lines = c.lines.filter (fun l => !l.unc) ∧ t.core.outbox = c.outbox.filter (·.committed) ∧
          t.mem = s.mem ∧ t.tags = s.tags)) ∧
    (c.trBuf = [] → c.phase = .idle → stops (.stop k)) ∧
    (c.phase ≠ .idle → goes (.stop k) fun c => { c with stopReq := true }) ∧
    (goes (.cancel k) fun c => { c with stopReq := false }) ∧
    (c.trBuf = [] → c.phase = .boundary → c.stopReq = true → stops (.preciseStop k)) ∧
    (∀ v : Word, exec (.dstatWrite k v) s = .next (s.now fun c => { c with dstatErr := 0 })) ∧
    (∀ v : Word, ((∃ n < 8, v.extractLsb' (2 * n) 2 = 3#2) → errs (.mcfgmWrite k v) 3) ∧
      ((∀ n < 8, v.extractLsb' (2 * n) 2 ≠ 3#2) → c.phase ≠ .frozen → c.phase ≠ .stopped → errs (.mcfgmWrite k v) 1) ∧
      ((∀ n < 8, v.extractLsb' (2 * n) 2 ≠ 3#2) → c.phase = .frozen →
        ∃ t, exec (.mcfgmWrite k v) s = .next t ∧ t.core.isat = v.getLsbD 16 ∧ t.core.vregs = c.vregs ∧ t.core.sa = c.sa ∧ t.core.sb = c.sb ∧
          ∀ n < 8, t.core.tf.toList.getD n 0 = v.extractLsb' (2 * n) 2 ∧
            t.core.tile n = if v.extractLsb' (2 * n) 2 = c.tf.toList.getD n 0 then c.tile n else Vector.replicate 1024 0)) ∧
    ∀ (ctx : Nat) (v : Word), ctx < 16 →
      let x := s.pkg.crests.toList.getD ctx Crest.idle
      (x.isOpen = false → exec (.cxcancel (0xE00 * 2 ^ 24 + 32 * ctx) v) s = .next s) ∧
      (x.isOpen = true → ∃ t, exec (.cxcancel (0xE00 * 2 ^ 24 + 32 * ctx) v) s = .next t ∧ t.pkg.crests.toList.getD ctx Crest.idle = Crest.idle ∧
        t.net = s.net ++ x.parties.map (fun p => .crsc p 2 ctx 0xFF true) ∧ t.pkg.skipFlag = s.pkg.skipFlag)

/-- R63, R79, R284, R288, R290, R291, R354, R355, R380, R445: a walk fills the cluster's translation cache; a committed dirty line
merges at its home, its masked bytes and no others, and stays clean; a shoot-down advances GEN, drops the cached translations and
completes by its count; RQGO pushes the cluster's record or drops a park entry; PVGO asks the last core of the launch to vacate,
which hands over at its boundary; an expert invalidation empties the router caches, and the expert's edited fields come into
force. A write to SDGO, PVGO, XTINV or RQGO that cannot act yet waits. That a walk can be a step of its own, what a shoot-down
drops beside the translations, that a host snoop's bytes go home, and that XTCOUNT counts for each commander, are the model's
reading (logs 23, 24, 34, 35). -/
def Obligations.MappingsAndVacates : Prop :=
  ∀ (s : State),
    (∀ (core : Nat) (a : Word), a.getLsbD 63 = false →
      (∀ x, walk s (objId a) (objOff a) 1 .read = .ok x → ∃ t, exec (.translationWalk core a) s = .next t ∧
        x.entry (objId a) ∈ (t.clusterAt (clusterOf core)).tc ∧ t.mem = s.mem ∧ t.core = s.core) ∧
      (∀ e, walk s (objId a) (objOff a) 1 .read = .error e → exec (.translationWalk core a) s = .next s)) ∧
    (∀ (l : Line) (a : Word), s.Canonical → s.others = [] → s.core.lines = [l] → l.unc = false → l.dirty ≠ 0 → l.addr = blockAddr a →
      isLocalDram s l.phys = true → l.phys % 64 = 0 → l.phys ∉ s.ecc →
      let merges (i : Instr) : Prop := ∃ t, exec i s = .next t ∧ t.core.lines = [l.cleaned] ∧ t.core.pc = s.core.pc ∧
        (∀ k < 64, physGet t (l.phys + k) = if l.dirty.getLsbD k then byteOf (asHeld s l.phys l.data) k else physGet s (l.phys + k)) ∧
        ∀ p, (p < l.phys ∨ l.phys + 64 ≤ p) → cellGet t.mem p = cellGet s.mem p
      merges (.writeBackMerge s.cid a) ∧ ∀ p : Word, blockOf p.toNat = l.phys → merges (.hostSnoop p)) ∧
    (∀ (u : Nat) (v : Word), u < 5 →
      let c := s.commander u
      (c.sdbusy = true → exec (.sdgo u v) s = .next (s.defer (.sdgo u v))) ∧
      (c.sdbusy = false → s.Canonical → s.others = [] → s.core.lines = [] →
        let p := entryAddr s c.sdobj.toNat
        kindOf p = 0 → p % 64 = 0 →
        ∃ t, exec (.sdgo u v) s = .next t ∧ t.commander u = { c with sdbusy := true, shot := ⟨c.sdobj.toNat, c.sdoff.toNat, c.sdlen.toNat, []⟩ } ∧
          physNat t (p + 2) 2 = (physNat s (p + 2) 2 + 1) % 2 ^ 16 ∧
          (∀ g, ∀ x ∈ (t.clusterAt g).tc, x.id ≠ c.sdobj) ∧ ∀ a, (a < p + 2 ∨ p + 4 ≤ a) → cellGet t.mem a = cellGet s.mem a) ∧
      (accessesDone s c.shot = false → exec (.shootdownComplete u) s = .next s) ∧
      (c.sdbusy = true → accessesDone s c.shot = true → ∃ t, exec (.shootdownComplete u) s = .next t ∧
        t.commander u = { c with sdbusy := false, sdcount := c.sdcount + 1 } ∧ (c.shot.kept = [] → t.mem = s.mem ∧ t.core = s.core)) ∧
      (c.xtbusy = false → ∃ t, exec (.xtinv u v) s = .next t ∧ t.commander u = { c with xtbusy := true, xtname := v.extractLsb' 0 16 } ∧ t.core = s.core) ∧
      (c.xtbusy = true → exec (.xtinv u v) s = .next (s.defer (.xtinv u v))) ∧
      (c.xtbusy = true → ∃ t, exec (.invalidationComplete u) s = .next t ∧ t.commander u = { c with xtbusy := false, xtcount := c.xtcount + 1 } ∧
        rosteredAt t c.xtname = headerOf s c.xtname ∧ (∀ x, x ≠ c.xtname → rosteredAt t x = rosteredAt s x) ∧ ∀ g, ∀ x ∈ (t.clusterAt g).router, x.1 ≠ c.xtname.toNat) ∧
      (c.pvbusy = true → exec (.pvgo u v) s = .next (s.defer (.pvgo u v))) ∧
      (c.pvbusy = false → (∀ l ∈ s.pkg.launches, l.number ≠ c.pvlaunch.toNat) → ∃ t, exec (.pvgo u v) s = .next t ∧
        t.commander u = { c with pvvac := 0, pvdone := c.pvdone + 1, pvleft := [], pvchosen := 0 } ∧ t.core = s.core) ∧
      ∀ (l : Launch) (x y : LaunchSlot), c.pvbusy = false → s.pkg.launches = [l] → l.number = c.pvlaunch.toNat → lrLat l.record = false →
        lrSeed l.record = false → l.slots = [x, y] → x.core < 3072 → y.core < 3072 → x.core ≠ y.core → y.core % 16 ≠ 15 → c.pvcount ≠ 0 →
        (s.coreAt x.core).vacReq = false →
        ∃ t, exec (.pvgo u v) s = .next t ∧ (t.coreAt y.core).vacReq = true ∧ (t.coreAt x.core).vacReq = false ∧
          (t.commander u).pvbusy = true ∧ (t.commander u).pvleft = [y.core]) ∧
    (∀ (g : Nat) (m no : Nat), g < 192 → m < 16 → no < 16 → s.Canonical →
      let k := 16 * g + m
      let v : Word := BitVec.ofNat 64 (m + 256 * no)
      let w := s.coreAt k
      (dequeTakes s k = false → exec (.rqgoPush g v) s = .next (s.defer (.rqgo g v))) ∧
      (dequeTakes s k = true → parkAt s k no = none → ∃ t, exec (.rqgoPush g v) s = .next t ∧ (t.coreAt k).dqBot = w.dqBot + 1 ∧
        dqRecord t k w.dqBot = (s.clusterAt g).rqrec ∧ dqCarried (t.coreAt k) w.dqBot = Carried.plain 5) ∧
      (parkAt s k no = none → exec (.rqgoDrop g v) s = .next s) ∧
      (∀ e, parkAt s k no = some e → e.holds = [] → e.msg = none → w.phase = .idle → ∃ t, exec (.rqgoDrop g v) s = .next t ∧ parkAt t k no = none ∧
        (∀ j < 16, j ≠ no → parkAt t k j = parkAt s k j) ∧ t.mem = s.mem)) ∧
    (s.core.vacReq = true → s.core.phase = .boundary → s.core.lines = [] → (∀ n < 8, (s.core.slot n).valid = false) → s.core.dqBot = s.core.dqTop →
      s.pkg.launches = [] → s.core.trEn = false → (∀ u < 5, (s.commander u).pvbusy = false) →
      exec (.vacateHandoff s.cid) s = .next (s.now fun c => { c with vacReq := false, vac := true, phase := .idle, fencedOff := c.fencedOff || c.faulty }))

/-- R401, R409, R410, R413, R440, R441: the host's write of SKIPF, the governor's mode once a period of 850 cycles has passed,
ESNAP, the port lock, reset, boot, attestation, and delegated debug requests: a request that its right refuses answers with the
reason and does nothing. R415 to R422, R427: host messages and package service messages, device memory, bias flips, the host link,
and host stores to registers; a write of the host behind one that waits, waits too. What memory, the agenda and the error state
hold after a package reset is the model's choice (logs 3, 4, 26). Measured values, and what firmware chooses, are free, and that
the energy grows by the power held is the model's reading (log 25); that a host access acts at the home at once is the model's
reading (log 24). -/
def Obligations.PackageAndHost : Prop :=
  (∀ (s : State),
    let turn : Prop := ∀ d ∈ s.deferred, d.isHost = false
    (∀ v : Word, turn →
      exec (.skipfWrite v) s = .next (s.modPkg fun p => { p with skipStep := v.extractLsb' 0 32, skipFlag := v.getLsbD 32 })) ∧
    (∀ v : Word, ¬ turn → exec (.skipfWrite v) s = .next (s.defer (.skipf v)) ∧ exec (.esnap v) s = .next (s.defer (.esnap v))) ∧
    ((s.pkg.cyc - s.pkg.pgFrom).toNat < 850 → exec .governorPeriod s = .next s) ∧
    (850 ≤ (s.pkg.cyc - s.pkg.pgFrom).toNat → ∃ t, exec .governorPeriod s = .next t ∧ t.core = s.core ∧ t.mem = s.mem ∧
      t.pkg.pgFrom = s.pkg.pgFrom + 850 ∧
      let low := s.pkg.pgPower - s.pkg.pgDn.toNat
      let high := s.pkg.pgPower + s.pkg.pgUp.toNat
      let watts := t.pkg.pgDemand.toNat
      let goes (mode : BitVec 2) (power : Nat) : Prop := t.pkg.pgMode = mode ∧ t.pkg.pgPower = power
      t.pkg.pgEne = s.pkg.pgEne + s.pkg.pgPower ∧
      (s.pkg.pgEn = false → goes 0 (watts * 1000)) ∧
      (s.pkg.pgEn = true → high < watts * 1000 → goes 3 high) ∧
      (s.pkg.pgEn = true → watts * 1000 < low →
        (t.pkg.pgMode = 1 ∧ low ≤ t.pkg.pgPower ∧ t.pkg.pgPower ≤ high ∧
          ∃ k, (s.coreAt k).act.isSome = true ∧ (s.coreAt k).clsFill = true ∧ (s.coreAt k).isFrozen = false) ∨ goes 2 (min low ((watts + s.pkg.pgBal.toNat) * 1000))) ∧
      (s.pkg.pgEn = true → low ≤ watts * 1000 → watts * 1000 ≤ high → goes 0 (watts * 1000))) ∧
    (∀ v : Word, turn → ∃ t, exec (.esnap v) s = .next t ∧ t.pkg.esnapE = BitVec.ofNat 64 (s.pkg.pgEne / 10 ^ 6) ∧ (s.pkg.portLocked = false → t.pkg.esnapT = 0 ∧ t.pkg.esnapN = 0) ∧
      t.core = s.core ∧ t.mem = s.mem) ∧
    exec .managementPortLock s = .next (s.modPkg fun p => { p with portLocked := true }) ∧
    exec .packageReset s = .next { State.reset with nfree := s.nfree, pkg := { Package.reset with bootImage := s.pkg.bootImage } } ∧
    (s.pkg.bootImage ≠ 0 → exec .firmwareBoot s = .next (s.modPkg fun p =>
      { p with bootStage := 1, bootErr := p.bootImage.setWidth 8, msix := p.msix ||| 4 })) ∧
    (s.Canonical → s.pkg.bootImage = 0 → ∃ t, exec .firmwareBoot s = .next t ∧ t.pkg.bootReady = true ∧ t.pkg.bootStage = 4 ∧ t.pkg.bootErr = 0 ∧ t.tags = [] ∧ t.core = s.core ∧
      t.pkg.otbase.toNat % 2 ^ 29 = 0 ∧ t.pkg.xtbase.toNat % 2 ^ 26 = 0 ∧ t.pkg.msix = s.pkg.msix ||| 4 ∧
      (∀ a, t.pkg.otbase.toNat ≤ a → a < t.pkg.otbase.toNat + 2 ^ 29 → cellGet t.mem a = 0) ∧
      ∀ a, t.pkg.xtbase.toNat ≤ a → a < t.pkg.xtbase.toNat + 2 ^ 26 → cellGet t.mem a = 0) ∧
    (∃ body, exec .attestationReport s = .next (s.modPkg fun p => { p with report := body, msix := p.msix ||| 4 })) ∧
    ∀ (n : Nat) (x : Right), rightAt s n = x →
      (n < 1024 → ∃ t, exec (.drrev n) s = .next t ∧ rightAt t n = { x with gen := x.gen + 1, v := false } ∧
        (∀ m, m ≠ n → rightAt t m = rightAt s m) ∧ t.core = s.core ∧ t.mem = s.mem) ∧
      (x.busy ≠ some 1 → exec (.drqLoad n) s = .next s) ∧
      (x.busy ≠ some 2 → exec (.drqStore n) s = .next s) ∧
      (x.busy = some 1 →
        let res := requestResult x false
        ∃ t, exec (.drqLoad n) s = .next t ∧ t.mem = s.mem ∧ t.core = s.core ∧
          rightAt t n = { x with busy := none, res := BitVec.ofNat 4 res, done := x.done + 1,
                                 drqData := if res = 0 then hostWindowLoad s x.drqAddr.toNat else x.drqData }) ∧
      (x.busy = some 2 →
        let target := x.drqAddr.toNat / 2 ^ 24
        let off := x.drqAddr.toNat % 2 ^ 24
        (x.drqGen ≠ x.gen.setWidth 64 → ∃ t, exec (.drqStore n) s = .next t ∧ t.mem = s.mem ∧ t.core = s.core ∧
          rightAt t n = { x with busy := none, res := 1, done := x.done + 1 }) ∧
        (requestResult x true = 0 → s.Canonical → target < 0xC00 → (off + 8 ≤ 0xDA400 ∨ (0xDC000 ≤ off ∧ off + 8 ≤ 2 ^ 20)) →
          ∃ t, exec (.drqStore n) s = .next t ∧ SameBytesBut (scratch s target off) 8 s t ∧ physWord t (scratch s target off) = x.drqData ∧
            rightAt t n = { x with busy := none, res := 0, done := x.done + 1 }))) ∧
  (∀ (s : State),
    let turn : Prop := ∀ d ∈ s.deferred, d.isHost = false
    (∀ (v : Word) (data : List Byte), ¬ turn → exec (.hmsg v data) s = .next (s.defer (.hmsg v data)) ∧
      exec (.bfgo v) s = .next (s.defer (.bfgo v)) ∧ exec (.registerWrite v v) s = .next (s.defer (.register v v))) ∧
    (∀ (v : Word) (data : List Byte), turn → data.length ≠ 64 → exec (.hmsg v data) s = .next s) ∧
    (∀ (v : Word) (data : List Byte), s.pkg.bootReady = true → data.length = 64 → turn →
      (1 ≤ mwLen v → mwLen v ≤ 64 → mwDst v < 0xC00 → s.pkg.hostMsgs.length < 16 →
        exec (.hmsg v data) s = .next (s.modPkg fun p => { p with hostMsgs := p.hostMsgs ++ [(v, data.take (mwLen v))] })) ∧
      ((mwLen v = 0 ∨ 64 < mwLen v ∨ 0xC00 ≤ mwDst v ∨ 16 ≤ s.pkg.hostMsgs.length) → s.pkg.hmstat ≠ BitVec.allOnes 32 →
        exec (.hmsg v data) s = .next (s.modPkg fun p => { p with hmstat := p.hmstat + 1 }))) ∧
    (∀ (w : Word) (bytes : List Byte), s.pkg.hostMsgs = [(w, bytes)] →
      (channelFull s (mwDst w) (mwCh w) = true → exec .hostMessageLeave s = .next s) ∧
      (channelFull s (mwDst w) (mwCh w) = false → ∃ t by_, exec .hostMessageLeave s = .next t ∧ t.pkg.hostMsgs = [] ∧
        t.net = s.net ++ [.msg 0xFFF 0xFFF (mwDst w) (mwCh w) bytes none by_])) ∧
    (∀ (ch : Nat) (bytes : List Byte) (rest : List (Nat × List Byte)), s.pkg.services = (ch, bytes) :: rest →
      (hqRoom s bytes = false → exec .packageServiceMessageLeave s = .next s) ∧
      (hqRoom s bytes = true → ∃ t, exec .packageServiceMessageLeave s = .next t ∧ t.pkg.services = rest ∧
        t.pkg.hqtail = s.pkg.hqtail + (if 56 < bytes.length then 2 else 1) ∧ t.pkg.msix.getLsbD 0 = true ∧ t.pkg.hqhead = s.pkg.hqhead ∧
        t.core = s.core)) ∧
    (∀ a : Word, (3072 * 2 ^ 28 ≤ a.toNat → exec (.cxlMemRead a) s = .next s) ∧
      (a.toNat < 3072 * 2 ^ 28 →
        (s.pkg.bfbusy = true → a.toNat / 4096 = s.pkg.bfat.toNat →
          exec (.cxlMemRead a) s = .next (s.modPkg fun p => { p with heldReads := p.heldReads ++ [a] })) ∧
        (s.pkg.bfbusy = false → a.toNat / 4096 ∈ s.pkg.hostBias →
          exec (.cxlMemRead a) s = .next (s.modPkg fun p => { p with hostData := [(a, physBytes s (blockOf (hdmPhys s a.toNat)) 64)] })) ∧
        ∀ l : Line, s.pkg.bfbusy = false → a.toNat / 4096 ∉ s.pkg.hostBias → s.Canonical → s.others = [] → s.core.lines = [l] → l.unc = false →
          l.dirty ≠ 0 → l.phys = blockOf (hdmPhys s a.toNat) → isLocalDram s l.phys = true → l.phys ∉ s.ecc →
          ∃ t, exec (.cxlMemRead a) s = .next t ∧ t.core.lines = [l.cleaned] ∧ ∃ bytes, t.pkg.hostData = [(a, bytes)] ∧ bytes.length = 64 ∧
            ∀ k < 64, bytes.getD k 0 = if l.dirty.getLsbD k then byteOf (asHeld s l.phys l.data) k else physGet s (l.phys + k))) ∧
    (∀ (a : Word) (data : List Byte), s.Canonical → a.toNat < 3072 * 2 ^ 28 →
      let blk := blockOf (hdmPhys s a.toNat)
      let off := a.toNat % 64
      off + data.length ≤ 64 → blk ∉ s.ecc → isHeader s blk = false → ∃ t, exec (.cxlMemWrite a data) s = .next t ∧ t.core = s.core ∧ t.tags = s.tags ∧
        ∀ k < 64, physGet t (blk + k) = if off ≤ k ∧ k < off + data.length then data.getD (k - off) 0 else physGet s (blk + k)) ∧
    (∀ v : Word, turn →
      let latched (p : Package) : Package := { p with bfbusy := true, bfat := p.bfpage, bfto := p.bfbias }
      (s.pkg.bfbusy = true → exec (.bfgo v) s = .next (s.defer (.bfgo v))) ∧
      (s.pkg.bfbusy = false → (s.pkg.bfbias = false ∨ s.pkg.bfpage.toNat ∈ s.pkg.hostBias) → exec (.bfgo v) s = .next (s.modPkg latched)) ∧
      ∀ l : Line, s.pkg.bfbusy = false → s.pkg.bfbias = true → s.pkg.bfpage.toNat ∉ s.pkg.hostBias → s.Canonical → s.others = [] →
        s.core.lines = [l] → l.unc = false → l.phys / 4096 = hdmPhys s (s.pkg.bfpage.toNat * 4096) / 4096 → l.phys % 64 = 0 →
        isLocalDram s l.phys = true → l.phys ∉ s.ecc →
        ∃ t, exec (.bfgo v) s = .next t ∧ t.core.lines = [] ∧ t.pkg.bfbusy = true ∧ t.pkg.bfat = s.pkg.bfpage ∧ t.pkg.bfto = true ∧
          ∀ k < 64, physGet t (l.phys + k) = if l.dirty.getLsbD k then byteOf (asHeld s l.phys l.data) k else physGet s (l.phys + k)) ∧
    (s.pkg.bfbusy = true → s.pkg.heldReads = [] → ∃ t, exec .biasFlipComplete s = .next t ∧ t.pkg.bfbusy = false ∧ t.pkg.bfcount = s.pkg.bfcount + 1 ∧
      t.core = s.core ∧ t.mem = s.mem ∧ (s.pkg.bfat.toNat ∈ t.pkg.hostBias ↔ s.pkg.bfto = true) ∧
      ∀ page, page ≠ s.pkg.bfat.toNat → (page ∈ t.pkg.hostBias ↔ page ∈ s.pkg.hostBias)) ∧
    (s.pkg.linkUp = true →
      exec .hostLinkDown s = .next (s.modPkg fun p => { p with linkUp := false, linkDrops := 0, linkDownCyc := p.cyc }) ∧ exec .hostLinkUp s = .next s) ∧
    (s.pkg.linkUp = false → exec .hostLinkDown s = .next s ∧ ∃ t, exec .hostLinkUp s = .next t ∧ t.pkg.linkUp = true ∧
      t.pkg.services = s.pkg.services ++ [(5, serviceBody 3 0 s.pkg.linkDrops.toNat 0 s.pkg.linkDownCyc)]) ∧
    ∀ v : Word, turn → exec (.registerWrite 0xE000_0000_0007_0020 v) s = .next (s.modPkg fun p => { p with hqen := v.getLsbD 0 }) ∧
      exec (.registerWrite 0xE000_0000_0007_0000 v) s = .next (s.modPkg fun p => { p with hqbase := v &&& ~~~ 63#64 }) ∧
      exec (.registerWrite 0xE000_0000_0007_0018 v) s = .next s)

/-- R426, R427, R424, R429 to R432: a message to another package leaves its core's send buffer as a flit, is placed in its
channel, tried again or dropped and counted; flits are acknowledged, move to an enabled port, or are lost with an unreachable
package, the first access to which that is dropped is reported. A sample is 32 bytes of the trace buffer, with the address of the
oldest instruction not retired: while a sequence runs, the captured one that it issues next; a full buffer goes to the ring, or
sets ERR and stops the trace. What another package answers, and the port that a flit takes, are free choices of the model (log
32). -/
def Obligations.ErgAndTrace : Prop :=
  (∀ (s : State) (v : Word), s.core.Calm → s.core.Settled → s.core.phase = .run → s.core.emBuf = [] → s.pkg.unreachable = [] → s.ecc = [] →
    let d := s.core.emdst
    let a := s.core.emsrc
    1 ≤ emLen d → emLen d ≤ 64 → emPkg d < 576 → emCore d < 0xC00 → s.OwnScratch a 1 → (a.extractLsb' 0 60).toNat + emLen d ≤ 2 ^ 20 →
    let m : RemoteMsg := { pkg := emPkg d, dst := emCore d, ch := emCh d, bytes := physBytes s (s.ownPlace a) (emLen d), sent := true, due := 0 }
    ∃ t, exec (.emgo s.cid v) s = .next t ∧ t.net = s.net ++ [.flit s.cid m] ∧ t.core = Core.renewed { commitRegion s.core with emBuf := [m] } ∧
      t.pkg.replay.map (·.2) = s.pkg.replay.map (·.2) ++ [(s.cid, m)] ∧ t.mem = s.mem) ∧
  (∀ (s : State) (k n : Nat) (m : RemoteMsg),
    let counted : BitVec 16 := if (s.coreAt k).emstat = BitVec.allOnes 16 then (s.coreAt k).emstat else (s.coreAt k).emstat + 1
    ((s.coreAt k).emBuf = [m] → m.sent = false → m.due.toNat ≤ s.pkg.cyc.toNat → s.pkg.unreachable = [] → ∃ t, exec (.ergRetry k) s = .next t ∧
      t.net = s.net ++ [.flit k { m with sent := true }] ∧ (t.coreAt k).emBuf = [{ m with sent := true }]) ∧
    (s.net[n]? = some (.flit k m) → m ∉ (s.coreAt k).emBuf → exec (.ergFlitArrival n) s = .next { s with net := s.net.eraseIdx n }) ∧
    (s.net[n]? = some (.flit k m) → (s.coreAt k).emBuf = [m] → m.pkg = s.pkg.pkgid.toNat →
      (chV (chWord s m.dst m.ch) = false → exec (.ergFlitArrival n) s = .next
        (({ s with net := s.net.eraseIdx n } : State).modCore k fun c => { c with emBuf := [], emstat := counted })) ∧
      (chV (chWord s m.dst m.ch) = true → channelFull s m.dst m.ch = true → exec (.ergFlitArrival n) s = .next
        (({ s with net := s.net.eraseIdx n } : State).modCore k fun c => { c with emBuf := [{ m with sent := false, due := s.pkg.cyc + 850 }] })) ∧
      (chV (chWord s m.dst m.ch) = true → channelFull s m.dst m.ch = false → (∀ b ∈ (s.coreAt m.dst).buffered, b.ch ≠ m.ch) →
        ∃ t, exec (.ergFlitArrival n) s = .next t ∧ t.net = s.net.eraseIdx n ∧ (t.coreAt k).emBuf = [] ∧
          (t.coreAt m.dst).buffered.getLast?.map (fun b => (b.ch, b.sender, b.len)) = some (m.ch, globalNumber s k, m.bytes.length))) ∧
    exec (.ergAck n) s = .next (s.modPkg fun p => { p with replay := p.replay.eraseIdx n }) ∧
    (n < 16 → ∃ t, exec (.ergPortDown n) s = .next t ∧ t.core = s.core ∧ t.pkg.replay.map (·.2) = s.pkg.replay.map (·.2) ∧
      t.pkg.ergPorts = s.pkg.ergPorts &&& ~~~ (1#16 <<< n) ∧ t.pkg.ergFenced = s.pkg.ergFenced ∧
      (t.pkg.ergPorts &&& ~~~ t.pkg.ergFenced ≠ 0 → ∀ r ∈ t.pkg.replay, r.1 ≠ n)) ∧
    (s.others = [] → s.core.emBuf = [] → (∀ u ∈ s.pkg.unreachable, u.1 ≠ n) → n ≠ s.pkg.pkgid.toNat → ∃ t, exec (.ergUnreachable n) s = .next t ∧
      assocGet t.pkg.unreachable n = some { drops := 0, since := s.pkg.cyc } ∧ (∀ r ∈ t.pkg.replay, r.2.2.pkg ≠ n) ∧
      t.pkg.services = s.pkg.services ∧ t.core = s.core) ∧
    (∀ since, (s.coreAt k).emBuf = [m] → m.sent = false → m.due.toNat ≤ s.pkg.cyc.toNat → m.pkg < 2 ^ 10 → m.pkg ≠ s.pkg.pkgid.toNat →
      assocGet s.pkg.unreachable m.pkg = some { drops := 0, since := since } → ∃ t, exec (.ergRetry k) s = .next t ∧ t.net = s.net ∧
        (t.coreAt k).emBuf = [] ∧ (t.coreAt k).emstat = counted ∧ assocGet t.pkg.unreachable m.pkg = some { drops := 1, since := since } ∧
        t.pkg.services.getLast? = some (4, serviceBody 2 m.pkg 1 0 since)) ∧
    (n < 16 → ∃ t, exec (.ergLinkTraining n) s = .next t ∧ t.pkg.pkgid.toNat < 576 ∧ t.pkg.ergPorts.getLsbD n = true ∧ t.core = s.core ∧ t.mem = s.mem)) ∧
  ∀ (s : State),
    let c := s.core
    let gap := max 1024 c.smpint.toNat
    let oldest : Word := match (if c.rep.state = 2 then c.rep.cap[c.rep.pos]? else none) with
      | some x => x.pc
      | none => c.pc
    let since := (s.pkg.cyc - c.trDate).toNat
    ((c.trEn = false ∨ c.smpint = 0) → exec (.sampleRecord s.cid) s = .next s) ∧
    (∀ a, c.trEn = true → c.trState ≠ 0 → c.smpint ≠ 0 → gap ≤ (s.pkg.cyc - c.smpFrom).toNat → c.trDate.toNat ≤ s.pkg.cyc.toNat → since ≤ 0x3F_FFFF → c.trBuf = [] → c.trOff.toNat % 64 = 0 →
      c.trOff.toNat + 64 ≤ 2 ^ (c.trSize.toNat + 12) → c.act = some a →
      exec (.sampleRecord s.cid) s = .next (s.now fun c => { c with
        smpFrom := c.smpFrom + BitVec.ofNat 64 gap
        trDate := s.pkg.cyc
        trSince := s.pkg.cyc
        trOff := c.trOff + 32
        trBuf := leBytes 4 (0xF2 + since * 2 ^ 8 + c.trState.toNat * 2 ^ 30) ++ leBytes 4 (s.cid % 2 ^ 12 + a.tag.toNat * 2 ^ 12) ++
          leBytes 8 a.epc.toNat ++ leBytes 8 oldest.toNat ++ leBytes 8 c.rpc.toNat })) ∧
    (c.trBuf = [] → exec (.traceFlush s.cid) s = .next s) ∧
    (c.trBuf ≠ [] →
      let size := 2 ^ (c.trSize.toNat + 12)
      let off := (c.trOff.toNat + size - c.trBuf.length) % size
      (∀ e, walk s c.trObj.toNat off c.trBuf.length .write = .error e → exec (.traceFlush s.cid) s = .next (s.now fun c =>
        { c with trBuf := [], trErr := true, trEn := false })) ∧
      (∀ x, walk s c.trObj.toNat off c.trBuf.length .write = .ok x →
        (reachable s x.phys = false ∨ mergeRefused s (blockOf x.phys) (byteMask (x.phys % 64) c.trBuf.length) 0 = true) →
        exec (.traceFlush s.cid) s = .next (s.now fun c => { c with trBuf := [], trErr := true, trEn := false })) ∧
      (∀ x, walk s c.trObj.toNat off c.trBuf.length .write = .ok x → s.Canonical → blockOf x.phys ∉ s.ecc → x.phys % 64 + c.trBuf.length ≤ 64 → isLocalDram s x.phys = true →
        isHeader s (blockOf x.phys) = false →
        ∃ t, exec (.traceFlush s.cid) s = .next t ∧ physBytes t x.phys c.trBuf.length = c.trBuf ∧ t.core = { c with trBuf := [] } ∧
          SameBytesBut x.phys c.trBuf.length s t))

/-! ### The machine as a whole -/

/-- R47, R54, R336, R346, R401, R408, R411: the package right after reset: every core idle, with its registers at the values of
R47 and R54, nothing under way, memory in canonical form. What memory that nothing has written reads as, and that the agenda is
empty, are the model's choices (logs 4, 3). -/
def Obligations.ResetState : Prop :=
  State.reset.Canonical ∧
  (∀ k : Nat,
    let c := State.reset.coreAt k
    c.phase = .idle ∧ c.act = none ∧ c.pc = 0 ∧ c.rpc = 0 ∧ c.ydl = 0 ∧ c.fcsr = 0 ∧ c.seed = 0 ∧ c.sguard = 64 ∧ c.creg = 0 ∧ c.mfl = 0 ∧ c.optH = 0 ∧
    c.cvSize = 0 ∧ c.outbox = [] ∧ c.lines = [] ∧ c.flags = ⟨0, 0, 0, 0, 0⟩ ∧ maskOf c 0 = BitVec.allOnes 128 ∧
    (∀ r < 32, c.s r = 0 ∧ c.isFull r = true ∧ c.vIsFull r = true ∧ ∀ i < 128, (VReg.nats (c.v r)).getD i 0 = 0) ∧
    (∀ m < 8, m ≠ 0 → maskOf c m = 0) ∧ (∀ n < 8, c.tileOf n = Vector.replicate 1024 0 ∧ (c.slot n).valid = false ∧ (c.slot n).hold = .none)) ∧
  (∀ g : Nat, (State.reset.clusterAt g).ywin = 2048 ∧ (State.reset.clusterAt g).defsteal = 1) ∧
  (let p := State.reset.pkg
   p.cyc = 0 ∧ p.skipFlag = false ∧ p.pgEn = false ∧ p.pgFdiv = 8 ∧ p.pgUp = 50 ∧ p.pgDn = 50 ∧ p.errwin = 1000 ∧ p.errthr = 64 ∧ p.launches = [] ∧
   p.bootReady = false ∧ p.hqtail = 0 ∧ p.hqhead = 0) ∧
  State.reset.net = [] ∧ State.reset.agenda = []

/-- Memory, host memory and the tags keep their canonical form: an invariant of the model's own representation (log 4), kept by
every step of every agent. -/
def Obligations.MemoryStaysCanonical : Prop :=
  ∀ s t : State, s.Canonical → step s = .next t → t.Canonical

/-- R80, R82, R85, R89 to R103: decoding and encoding agree. Every well-formed encoded instruction is read back from its bytes,
whatever follows them; and a word or halfword that decodes is the code of what it decodes to, so no bit of it is dropped. -/
def Obligations.DecodeEncode : Prop :=
  (∀ (i : Instr) (rest : List Byte), WellFormed i → i.isEvent = false → decode (encode i ++ rest) = .ok (i, rest)) ∧
  (∀ (w : BitVec 32) (i : Instr), w.getLsbD 0 = true → decode32 w = .ok i → WellFormed i ∧ code i = some (.word w)) ∧
  ∀ (h : BitVec 16) (i : Instr), h.getLsbD 0 = false → decode16 h = .ok i → WellFormed i ∧ code i = some (.half h)

/-- R80, R81: a core whose turn it is, running and in no caravan, with nothing that comes before its issue, executes the
instruction that the bytes at its PC decode to: the step is that instruction's exec on the state after the fetch, with its word
latched as the instruction in issue; then the cycles that pass, what the traces make of them, and the corrected errors counted.
Where no core traces and no error is to be counted or declared, only CYC has moved. Which core issues, and that an instruction
takes one cycle and a free number of others, are the model's choices (logs 2, 11). A fetch may evict an L2 line, and with it write
committed bytes home; where no line is dirty it leaves memory alone. One that has committed and that no abort may undo any more
goes on as the word latched for it, and is not fetched again: the model's reading of R146, R235 and R403 (log 19). -/
def Obligations.StepRunsDecoded : Prop :=
  ∀ (s : State) (rest : List Move) (i : Instr), s.agenda = .issue s.cid :: rest → s.core.phase = .run → s.core.cvPos = 0 → s.core.cvSize = 0 →
    s.core.ydl = 0 → s.core.closing = none → s.core.trEn = false →
    let reads (w : BitVec 32) : Prop := (if w.getLsbD 0 then decode32 w else decode16 (w.extractLsb' 0 16)) = .ok i
    let runs (u : State) : Prop := ∀ t, exec i u = .next t →
      let later := t.modPkg fun p => { p with cyc := p.cyc + 1 + BitVec.ofNat 64 (Config.stepCycles s.pkg.cyc.toNat) }
      step s = .next (settleErrors (traceWaits later)) ∧
      ((∀ k, (t.coreAt k).trEn = false) → t.corrections = [] → faultyUnits later.pkg = [] → step s = .next later)
    (∀ (w : BitVec 32) (u : State), (s.core.committed = false ∨ s.core.noAbort = false) → s.core.capturing = false →
      fetchInsn s.core.pc { s with agenda := rest, held := false, governed := false } = .ok (w, u) → reads w →
      (u.core.pc = s.core.pc ∧ u.core.sregs = s.core.sregs ∧ u.core.vregs = s.core.vregs ∧
        ((∀ k, ∀ l ∈ (s.coreAt k).lines, l.isDirty = false) → u.mem = s.mem ∧ u.tags = s.tags)) ∧
      runs { u with core := { u.core with insn := w, pfx := none, repAt := none } }) ∧
    (s.core.committed = true → s.core.noAbort = true → s.core.pfx = none → reads s.core.insn → runs { s with agenda := rest, held := false, governed := false })

/-- R89, R91 to R103, R157: words written out from the encoding tables decode to the instructions that they stand for. -/
def Obligations.DecodeSanity : Prop :=
  decode32 0x0808731B = .ok (.ld { size := 2, hint := 0, t := 0, base := 7, d := 6, imm := 16 }) ∧
  decode32 0x0000097F = .ok (.pfx { r := 0, usec := 0, c := 0, rm := 1, zero := 0, mask := 2 }) ∧
  decode32 0x000620A9 = .ok (.fadd { ty := 0, bs := 0, t := 0, vb := 3, va := 2, vd := 1 }) ∧
  decode16 0x1462 = .ok (.fadd16 { tb := 0, vb := 5, vd := 3 }) ∧
  decode32 0x000A4181 = .ok (.add { tb := 0, ta := 0, b := 5, a := 4, d := 3 }) ∧
  decode32 0xFF702095 = .ok (.beq { disp := 0xFF7, b := 2, a := 1 }) ∧
  decode32 0x200C501F = .ok (.amoAddP { r := 0, w := 0, tb := 0, ta := 0, b := 6, a := 5 }) ∧
  decode32 0x1908519F = .ok (.amoCas { r := 0, w := 1, tb := 0, ta := 0, b := 4, a := 5, d := 3 }) ∧
  decode32 0x010001A7 = .ok (.csrr { x := 0, d := 3 }) ∧
  decode32 0x0802A027 = .ok (.trap { x := 0x2A, d := 0 }) ∧
  decode32 0x0001F019 = .ok (.jalr { imm := 0, ta := 0, a := 31, d := 0 })
end

