-- ==== Sys2Proof/Laws/State.lean ====
section
/-!
SUPPORT. What each update of the package, of a core and of its registers leaves and sets, field by field, so that no later proof
unfolds a record update.
-/

namespace Sys2Proof.Machine

/-! ### Updates of the package -/

section
variable (s : State) (f : Core → Core) (p : Package → Package) (k : Nat) (c : Core) (g : Cluster → Cluster) (m : Commander → Commander) (d : Deferral) (u : State)

@[simp] theorem now_core : (s.now f).core = f s.core := rfl
@[simp] theorem now_cid : (s.now f).cid = s.cid := rfl
@[simp] theorem now_others : (s.now f).others = s.others := rfl
@[simp] theorem now_mem : (s.now f).mem = s.mem := rfl
@[simp] theorem now_tags : (s.now f).tags = s.tags := rfl
@[simp] theorem now_host : (s.now f).host = s.host := rfl
@[simp] theorem now_ecc : (s.now f).ecc = s.ecc := rfl
@[simp] theorem now_corrections : (s.now f).corrections = s.corrections := rfl
@[simp] theorem now_clusters : (s.now f).clusters = s.clusters := rfl
@[simp] theorem now_commanders : (s.now f).commanders = s.commanders := rfl
@[simp] theorem now_pkg : (s.now f).pkg = s.pkg := rfl
@[simp] theorem now_rostered : (s.now f).rostered = s.rostered := rfl
@[simp] theorem now_monitors : (s.now f).monitors = s.monitors := rfl
@[simp] theorem now_waiters : (s.now f).waiters = s.waiters := rfl
@[simp] theorem now_net : (s.now f).net = s.net := rfl
@[simp] theorem now_deferred : (s.now f).deferred = s.deferred := rfl
@[simp] theorem now_agenda : (s.now f).agenda = s.agenda := rfl
@[simp] theorem now_nfree : (s.now f).nfree = s.nfree := rfl
@[simp] theorem now_held : (s.now f).held = s.held := rfl
@[simp] theorem now_governed : (s.now f).governed = s.governed := rfl
@[simp] theorem modPkg_core : (s.modPkg p).core = s.core := rfl
@[simp] theorem modPkg_cid : (s.modPkg p).cid = s.cid := rfl
@[simp] theorem modPkg_others : (s.modPkg p).others = s.others := rfl
@[simp] theorem modPkg_mem : (s.modPkg p).mem = s.mem := rfl
@[simp] theorem modPkg_tags : (s.modPkg p).tags = s.tags := rfl
@[simp] theorem modPkg_host : (s.modPkg p).host = s.host := rfl
@[simp] theorem modPkg_ecc : (s.modPkg p).ecc = s.ecc := rfl
@[simp] theorem modPkg_corrections : (s.modPkg p).corrections = s.corrections := rfl
@[simp] theorem modPkg_clusters : (s.modPkg p).clusters = s.clusters := rfl
@[simp] theorem modPkg_commanders : (s.modPkg p).commanders = s.commanders := rfl
@[simp] theorem modPkg_pkg : (s.modPkg p).pkg = p s.pkg := rfl
@[simp] theorem modPkg_rostered : (s.modPkg p).rostered = s.rostered := rfl
@[simp] theorem modPkg_monitors : (s.modPkg p).monitors = s.monitors := rfl
@[simp] theorem modPkg_waiters : (s.modPkg p).waiters = s.waiters := rfl
@[simp] theorem modPkg_net : (s.modPkg p).net = s.net := rfl
@[simp] theorem modPkg_deferred : (s.modPkg p).deferred = s.deferred := rfl
@[simp] theorem modPkg_agenda : (s.modPkg p).agenda = s.agenda := rfl
@[simp] theorem modPkg_nfree : (s.modPkg p).nfree = s.nfree := rfl
@[simp] theorem modPkg_held : (s.modPkg p).held = s.held := rfl
@[simp] theorem modPkg_governed : (s.modPkg p).governed = s.governed := rfl
@[simp] theorem defer_core : (s.defer d).core = s.core := rfl
@[simp] theorem defer_cid : (s.defer d).cid = s.cid := rfl
@[simp] theorem defer_others : (s.defer d).others = s.others := rfl
@[simp] theorem defer_mem : (s.defer d).mem = s.mem := rfl
@[simp] theorem defer_tags : (s.defer d).tags = s.tags := rfl
@[simp] theorem defer_host : (s.defer d).host = s.host := rfl
@[simp] theorem defer_ecc : (s.defer d).ecc = s.ecc := rfl
@[simp] theorem defer_corrections : (s.defer d).corrections = s.corrections := rfl
@[simp] theorem defer_clusters : (s.defer d).clusters = s.clusters := rfl
@[simp] theorem defer_commanders : (s.defer d).commanders = s.commanders := rfl
@[simp] theorem defer_pkg : (s.defer d).pkg = s.pkg := rfl
@[simp] theorem defer_rostered : (s.defer d).rostered = s.rostered := rfl
@[simp] theorem defer_monitors : (s.defer d).monitors = s.monitors := rfl
@[simp] theorem defer_waiters : (s.defer d).waiters = s.waiters := rfl
@[simp] theorem defer_net : (s.defer d).net = s.net := rfl
@[simp] theorem defer_deferred : (s.defer d).deferred = s.deferred ++ [d] := rfl
@[simp] theorem defer_agenda : (s.defer d).agenda = s.agenda := rfl
@[simp] theorem defer_nfree : (s.defer d).nfree = s.nfree := rfl
@[simp] theorem defer_held : (s.defer d).held = s.held := rfl
@[simp] theorem defer_governed : (s.defer d).governed = s.governed := rfl
@[simp] theorem advance_core : (advance u s).core = s.core := rfl
@[simp] theorem advance_cid : (advance u s).cid = s.cid := rfl
@[simp] theorem advance_others : (advance u s).others = s.others := rfl
@[simp] theorem advance_mem : (advance u s).mem = s.mem := rfl
@[simp] theorem advance_tags : (advance u s).tags = s.tags := rfl
@[simp] theorem advance_host : (advance u s).host = s.host := rfl
@[simp] theorem advance_ecc : (advance u s).ecc = s.ecc := rfl
@[simp] theorem advance_corrections : (advance u s).corrections = s.corrections := rfl
@[simp] theorem advance_clusters : (advance u s).clusters = s.clusters := rfl
@[simp] theorem advance_commanders : (advance u s).commanders = s.commanders := rfl
@[simp] theorem advance_rostered : (advance u s).rostered = s.rostered := rfl
@[simp] theorem advance_monitors : (advance u s).monitors = s.monitors := rfl
@[simp] theorem advance_waiters : (advance u s).waiters = s.waiters := rfl
@[simp] theorem advance_net : (advance u s).net = s.net := rfl
@[simp] theorem advance_deferred : (advance u s).deferred = s.deferred := rfl
@[simp] theorem advance_agenda : (advance u s).agenda = s.agenda := rfl
@[simp] theorem advance_nfree : (advance u s).nfree = s.nfree := rfl
@[simp] theorem advance_held : (advance u s).held = s.held := rfl
@[simp] theorem advance_governed : (advance u s).governed = s.governed := rfl
@[simp] theorem modCluster_core : (s.modCluster k g).core = s.core := rfl
@[simp] theorem modCluster_cid : (s.modCluster k g).cid = s.cid := rfl
@[simp] theorem modCluster_others : (s.modCluster k g).others = s.others := rfl
@[simp] theorem modCluster_mem : (s.modCluster k g).mem = s.mem := rfl
@[simp] theorem modCluster_tags : (s.modCluster k g).tags = s.tags := rfl
@[simp] theorem modCluster_host : (s.modCluster k g).host = s.host := rfl
@[simp] theorem modCluster_ecc : (s.modCluster k g).ecc = s.ecc := rfl
@[simp] theorem modCluster_corrections : (s.modCluster k g).corrections = s.corrections := rfl
@[simp] theorem modCluster_commanders : (s.modCluster k g).commanders = s.commanders := rfl
@[simp] theorem modCluster_pkg : (s.modCluster k g).pkg = s.pkg := rfl
@[simp] theorem modCluster_rostered : (s.modCluster k g).rostered = s.rostered := rfl
@[simp] theorem modCluster_monitors : (s.modCluster k g).monitors = s.monitors := rfl
@[simp] theorem modCluster_waiters : (s.modCluster k g).waiters = s.waiters := rfl
@[simp] theorem modCluster_net : (s.modCluster k g).net = s.net := rfl
@[simp] theorem modCluster_deferred : (s.modCluster k g).deferred = s.deferred := rfl
@[simp] theorem modCluster_agenda : (s.modCluster k g).agenda = s.agenda := rfl
@[simp] theorem modCluster_nfree : (s.modCluster k g).nfree = s.nfree := rfl
@[simp] theorem modCluster_held : (s.modCluster k g).held = s.held := rfl
@[simp] theorem modCluster_governed : (s.modCluster k g).governed = s.governed := rfl
@[simp] theorem modCommander_core : (s.modCommander k m).core = s.core := rfl
@[simp] theorem modCommander_cid : (s.modCommander k m).cid = s.cid := rfl
@[simp] theorem modCommander_others : (s.modCommander k m).others = s.others := rfl
@[simp] theorem modCommander_mem : (s.modCommander k m).mem = s.mem := rfl
@[simp] theorem modCommander_tags : (s.modCommander k m).tags = s.tags := rfl
@[simp] theorem modCommander_host : (s.modCommander k m).host = s.host := rfl
@[simp] theorem modCommander_ecc : (s.modCommander k m).ecc = s.ecc := rfl
@[simp] theorem modCommander_corrections : (s.modCommander k m).corrections = s.corrections := rfl
@[simp] theorem modCommander_clusters : (s.modCommander k m).clusters = s.clusters := rfl
@[simp] theorem modCommander_pkg : (s.modCommander k m).pkg = s.pkg := rfl
@[simp] theorem modCommander_rostered : (s.modCommander k m).rostered = s.rostered := rfl
@[simp] theorem modCommander_monitors : (s.modCommander k m).monitors = s.monitors := rfl
@[simp] theorem modCommander_waiters : (s.modCommander k m).waiters = s.waiters := rfl
@[simp] theorem modCommander_net : (s.modCommander k m).net = s.net := rfl
@[simp] theorem modCommander_deferred : (s.modCommander k m).deferred = s.deferred := rfl
@[simp] theorem modCommander_agenda : (s.modCommander k m).agenda = s.agenda := rfl
@[simp] theorem modCommander_nfree : (s.modCommander k m).nfree = s.nfree := rfl
@[simp] theorem modCommander_held : (s.modCommander k m).held = s.held := rfl
@[simp] theorem modCommander_governed : (s.modCommander k m).governed = s.governed := rfl
@[simp] theorem putCore_cid : (s.putCore k c).cid = s.cid := by unfold State.putCore; split <;> rfl
@[simp] theorem putCore_mem : (s.putCore k c).mem = s.mem := by unfold State.putCore; split <;> rfl
@[simp] theorem putCore_tags : (s.putCore k c).tags = s.tags := by unfold State.putCore; split <;> rfl
@[simp] theorem putCore_host : (s.putCore k c).host = s.host := by unfold State.putCore; split <;> rfl
@[simp] theorem putCore_ecc : (s.putCore k c).ecc = s.ecc := by unfold State.putCore; split <;> rfl
@[simp] theorem putCore_corrections : (s.putCore k c).corrections = s.corrections := by unfold State.putCore; split <;> rfl
@[simp] theorem putCore_clusters : (s.putCore k c).clusters = s.clusters := by unfold State.putCore; split <;> rfl
@[simp] theorem putCore_commanders : (s.putCore k c).commanders = s.commanders := by unfold State.putCore; split <;> rfl
@[simp] theorem putCore_pkg : (s.putCore k c).pkg = s.pkg := by unfold State.putCore; split <;> rfl
@[simp] theorem putCore_rostered : (s.putCore k c).rostered = s.rostered := by unfold State.putCore; split <;> rfl
@[simp] theorem putCore_monitors : (s.putCore k c).monitors = s.monitors := by unfold State.putCore; split <;> rfl
@[simp] theorem putCore_waiters : (s.putCore k c).waiters = s.waiters := by unfold State.putCore; split <;> rfl
@[simp] theorem putCore_net : (s.putCore k c).net = s.net := by unfold State.putCore; split <;> rfl
@[simp] theorem putCore_deferred : (s.putCore k c).deferred = s.deferred := by unfold State.putCore; split <;> rfl
@[simp] theorem putCore_agenda : (s.putCore k c).agenda = s.agenda := by unfold State.putCore; split <;> rfl
@[simp] theorem putCore_nfree : (s.putCore k c).nfree = s.nfree := by unfold State.putCore; split <;> rfl
@[simp] theorem putCore_held : (s.putCore k c).held = s.held := by unfold State.putCore; split <;> rfl
@[simp] theorem putCore_governed : (s.putCore k c).governed = s.governed := by unfold State.putCore; split <;> rfl
@[simp] theorem modCore_cid : (s.modCore k f).cid = s.cid := putCore_cid s k _
@[simp] theorem modCore_mem : (s.modCore k f).mem = s.mem := putCore_mem s k _
@[simp] theorem modCore_tags : (s.modCore k f).tags = s.tags := putCore_tags s k _
@[simp] theorem modCore_host : (s.modCore k f).host = s.host := putCore_host s k _
@[simp] theorem modCore_ecc : (s.modCore k f).ecc = s.ecc := putCore_ecc s k _
@[simp] theorem modCore_corrections : (s.modCore k f).corrections = s.corrections := putCore_corrections s k _
@[simp] theorem modCore_clusters : (s.modCore k f).clusters = s.clusters := putCore_clusters s k _
@[simp] theorem modCore_commanders : (s.modCore k f).commanders = s.commanders := putCore_commanders s k _
@[simp] theorem modCore_pkg : (s.modCore k f).pkg = s.pkg := putCore_pkg s k _
@[simp] theorem modCore_rostered : (s.modCore k f).rostered = s.rostered := putCore_rostered s k _
@[simp] theorem modCore_monitors : (s.modCore k f).monitors = s.monitors := putCore_monitors s k _
@[simp] theorem modCore_waiters : (s.modCore k f).waiters = s.waiters := putCore_waiters s k _
@[simp] theorem modCore_net : (s.modCore k f).net = s.net := putCore_net s k _
@[simp] theorem modCore_deferred : (s.modCore k f).deferred = s.deferred := putCore_deferred s k _
@[simp] theorem modCore_agenda : (s.modCore k f).agenda = s.agenda := putCore_agenda s k _
@[simp] theorem modCore_nfree : (s.modCore k f).nfree = s.nfree := putCore_nfree s k _
@[simp] theorem modCore_held : (s.modCore k f).held = s.held := putCore_held s k _
@[simp] theorem modCore_governed : (s.modCore k f).governed = s.governed := putCore_governed s k _
@[simp] theorem focus_mem : (s.focus k).mem = s.mem := by unfold State.focus; split <;> rfl
@[simp] theorem focus_tags : (s.focus k).tags = s.tags := by unfold State.focus; split <;> rfl
@[simp] theorem focus_host : (s.focus k).host = s.host := by unfold State.focus; split <;> rfl
@[simp] theorem focus_ecc : (s.focus k).ecc = s.ecc := by unfold State.focus; split <;> rfl
@[simp] theorem focus_corrections : (s.focus k).corrections = s.corrections := by unfold State.focus; split <;> rfl
@[simp] theorem focus_clusters : (s.focus k).clusters = s.clusters := by unfold State.focus; split <;> rfl
@[simp] theorem focus_commanders : (s.focus k).commanders = s.commanders := by unfold State.focus; split <;> rfl
@[simp] theorem focus_pkg : (s.focus k).pkg = s.pkg := by unfold State.focus; split <;> rfl
@[simp] theorem focus_rostered : (s.focus k).rostered = s.rostered := by unfold State.focus; split <;> rfl
@[simp] theorem focus_monitors : (s.focus k).monitors = s.monitors := by unfold State.focus; split <;> rfl
@[simp] theorem focus_waiters : (s.focus k).waiters = s.waiters := by unfold State.focus; split <;> rfl
@[simp] theorem focus_net : (s.focus k).net = s.net := by unfold State.focus; split <;> rfl
@[simp] theorem focus_deferred : (s.focus k).deferred = s.deferred := by unfold State.focus; split <;> rfl
@[simp] theorem focus_agenda : (s.focus k).agenda = s.agenda := by unfold State.focus; split <;> rfl
@[simp] theorem focus_nfree : (s.focus k).nfree = s.nfree := by unfold State.focus; split <;> rfl
@[simp] theorem focus_held : (s.focus k).held = s.held := by unfold State.focus; split <;> rfl
@[simp] theorem focus_governed : (s.focus k).governed = s.governed := by unfold State.focus; split <;> rfl
@[simp] theorem takeMove_core : (takeMove s).core = s.core := rfl
@[simp] theorem takeMove_cid : (takeMove s).cid = s.cid := rfl
@[simp] theorem takeMove_others : (takeMove s).others = s.others := rfl
@[simp] theorem takeMove_mem : (takeMove s).mem = s.mem := rfl
@[simp] theorem takeMove_tags : (takeMove s).tags = s.tags := rfl
@[simp] theorem takeMove_host : (takeMove s).host = s.host := rfl
@[simp] theorem takeMove_ecc : (takeMove s).ecc = s.ecc := rfl
@[simp] theorem takeMove_corrections : (takeMove s).corrections = s.corrections := rfl
@[simp] theorem takeMove_clusters : (takeMove s).clusters = s.clusters := rfl
@[simp] theorem takeMove_commanders : (takeMove s).commanders = s.commanders := rfl
@[simp] theorem takeMove_pkg : (takeMove s).pkg = s.pkg := rfl
@[simp] theorem takeMove_rostered : (takeMove s).rostered = s.rostered := rfl
@[simp] theorem takeMove_monitors : (takeMove s).monitors = s.monitors := rfl
@[simp] theorem takeMove_waiters : (takeMove s).waiters = s.waiters := rfl
@[simp] theorem takeMove_net : (takeMove s).net = s.net := rfl
@[simp] theorem takeMove_deferred : (takeMove s).deferred = s.deferred := rfl
@[simp] theorem takeMove_agenda : (takeMove s).agenda = s.agenda.tail := rfl
@[simp] theorem takeMove_nfree : (takeMove s).nfree = s.nfree := rfl
@[simp] theorem takeMove_held : (takeMove s).held = false := rfl
@[simp] theorem takeMove_governed : (takeMove s).governed = false := rfl

@[simp] theorem focus_cid : (s.focus k).cid = k := by
  unfold State.focus
  split
  · next h => exact h.symm
  · rfl
@[simp] theorem focus_self : s.focus s.cid = s := by simp [State.focus]
@[simp] theorem now_now (h : Core → Core) : (s.now f).now h = s.now fun c => h (f c) := rfl
end

/-! ### Values by number -/

section
variable {α : Type}

@[simp] theorem assocGet_set (l : List (Nat × α)) (a : Nat) (v : α) : assocGet (assocSet l a v) a = some v := by
  induction l with
  | nil => simp [assocSet, assocGet]
  | cons x rest ih =>
    obtain ⟨k, w⟩ := x
    unfold assocSet
    split
    · simp [assocGet]
    · split
      · simp [assocGet]
      · next h => simp [assocGet, h, ih]

theorem assocGet_set_other (l : List (Nat × α)) {a b : Nat} (v : α) (h : b ≠ a) : assocGet (assocSet l a v) b = assocGet l b := by
  induction l with
  | nil => simp [assocSet, assocGet, Ne.symm h]
  | cons x rest ih =>
    obtain ⟨k, w⟩ := x
    unfold assocSet
    split
    · simp [assocGet, Ne.symm h]
    · split
      · next e => subst e; simp [assocGet, Ne.symm h]
      · simp [assocGet, ih]

theorem assocGet_drop_other (l : List (Nat × α)) {a b : Nat} (h : b ≠ a) : assocGet (assocDrop l a) b = assocGet l b := by
  induction l with
  | nil => rfl
  | cons x rest ih =>
    obtain ⟨k, w⟩ := x
    by_cases e : k = a
    · subst e
      have : assocDrop ((k, w) :: rest) k = assocDrop rest k := by simp [assocDrop]
      rw [this, ih]; simp [assocGet, Ne.symm h]
    · have : assocDrop ((k, w) :: rest) a = (k, w) :: assocDrop rest a := by simp [assocDrop, e]
      rw [this]; simp [assocGet, ih]
end

section
variable (s : State) (k : Nat)

@[simp] theorem coreAt_cid : s.coreAt s.cid = s.core := by simp [State.coreAt]
@[simp] theorem focus_core : (s.focus k).core = s.coreAt k := by
  unfold State.focus
  split
  · next h => subst h; simp
  · rfl
@[simp] theorem coreAt_now_self (f : Core → Core) : (s.now f).coreAt s.cid = f s.core := by simp [State.coreAt]
theorem coreAt_now_other (f : Core → Core) (h : k ≠ s.cid) : (s.now f).coreAt k = s.coreAt k := by simp [State.coreAt, h]
@[simp] theorem coreAt_putCore (c : Core) : (s.putCore k c).coreAt k = c := by
  unfold State.putCore
  split
  · next h => subst h; simp [State.coreAt]
  · next h => simp [State.coreAt, h]
theorem coreAt_putCore_other (c : Core) {j : Nat} (h : j ≠ k) : (s.putCore k c).coreAt j = s.coreAt j := by
  unfold State.putCore
  split
  · next e => subst e; simp [State.coreAt, h]
  · simp [State.coreAt, assocGet_set_other _ _ h]
@[simp] theorem coreAt_modCore (f : Core → Core) : (s.modCore k f).coreAt k = f (s.coreAt k) := coreAt_putCore s k _
theorem coreAt_modCore_other (f : Core → Core) {j : Nat} (h : j ≠ k) : (s.modCore k f).coreAt j = s.coreAt j :=
  coreAt_putCore_other s k _ h
@[simp] theorem coreAt_modPkg (p : Package → Package) : (s.modPkg p).coreAt k = s.coreAt k := rfl
@[simp] theorem modCore_self (f : Core → Core) : s.modCore s.cid f = s.now f := by simp [State.modCore, State.putCore, State.now]
@[simp] theorem coreAt_focus (j : Nat) : (s.focus k).coreAt j = s.coreAt j := by
  unfold State.focus
  split
  · rfl
  · next h =>
    by_cases hj : j = k
    · subst hj; simp [State.coreAt, h]
    · by_cases hc : j = s.cid
      · subst hc; simp [State.coreAt, hj]
      · simp [State.coreAt, hj, hc, assocGet_set_other _ _ hc, assocGet_drop_other _ hj]
@[simp] theorem clusterAt_modCluster (g : Cluster → Cluster) : (s.modCluster k g).clusterAt k = g (s.clusterAt k) := by
  simp [State.modCluster, State.clusterAt]
theorem clusterAt_modCluster_other (g : Cluster → Cluster) {j : Nat} (h : j ≠ k) : (s.modCluster k g).clusterAt j = s.clusterAt j := by
  simp [State.modCluster, State.clusterAt, assocGet_set_other _ _ h]
end

/-! ### Updates of a core -/

section
variable (c : Core) (pc : Word) (k : Nat) (v : Word)

@[simp] theorem settled_sregs : (c.settled).sregs = c.sregs := rfl
@[simp] theorem settled_sfull : (c.settled).sfull = c.sfull := rfl
@[simp] theorem settled_vregs : (c.settled).vregs = c.vregs := rfl
@[simp] theorem settled_vfull : (c.settled).vfull = c.vfull := rfl
@[simp] theorem settled_masks : (c.settled).masks = c.masks := rfl
@[simp] theorem settled_flags : (c.settled).flags = c.flags := rfl
@[simp] theorem settled_tiles : (c.settled).tiles = c.tiles := rfl
@[simp] theorem settled_pc : (c.settled).pc = c.pc := rfl
@[simp] theorem settled_rpc : (c.settled).rpc = c.rpc := rfl
@[simp] theorem settled_tf : (c.settled).tf = c.tf := rfl
@[simp] theorem settled_isat : (c.settled).isat = c.isat := rfl
@[simp] theorem settled_sa : (c.settled).sa = c.sa := rfl
@[simp] theorem settled_sb : (c.settled).sb = c.sb := rfl
@[simp] theorem settled_c8 : (c.settled).c8 = c.c8 := rfl
@[simp] theorem settled_c4 : (c.settled).c4 = c.c4 := rfl
@[simp] theorem settled_lidx : (c.settled).lidx = c.lidx := rfl
@[simp] theorem settled_clsLat : (c.settled).clsLat = c.clsLat := rfl
@[simp] theorem settled_clsOrigin : (c.settled).clsOrigin = c.clsOrigin := rfl
@[simp] theorem settled_clsFill : (c.settled).clsFill = c.clsFill := rfl
@[simp] theorem settled_sguard : (c.settled).sguard = c.sguard := rfl
@[simp] theorem settled_fcsr : (c.settled).fcsr = c.fcsr := rfl
@[simp] theorem settled_seed : (c.settled).seed = c.seed := rfl
@[simp] theorem settled_creg : (c.settled).creg = c.creg := rfl
@[simp] theorem settled_crscScale : (c.settled).crscScale = c.crscScale := rfl
@[simp] theorem settled_crscNf : (c.settled).crscNf = c.crscNf := rfl
@[simp] theorem settled_crscCtx : (c.settled).crscCtx = c.crscCtx := rfl
@[simp] theorem settled_crscValid : (c.settled).crscValid = c.crscValid := rfl
@[simp] theorem settled_aborts : (c.settled).aborts = c.aborts := rfl
@[simp] theorem settled_surr : (c.settled).surr = c.surr := rfl
@[simp] theorem settled_ydl : (c.settled).ydl = c.ydl := rfl
@[simp] theorem settled_mfl : (c.settled).mfl = c.mfl := rfl
@[simp] theorem settled_wnote : (c.settled).wnote = c.wnote := rfl
@[simp] theorem settled_cvPos : (c.settled).cvPos = c.cvPos := rfl
@[simp] theorem settled_cvSize : (c.settled).cvSize = c.cvSize := rfl
@[simp] theorem settled_optH : (c.settled).optH = c.optH := rfl
@[simp] theorem settled_trEn : (c.settled).trEn = c.trEn := rfl
@[simp] theorem settled_trSize : (c.settled).trSize = c.trSize := rfl
@[simp] theorem settled_trObj : (c.settled).trObj = c.trObj := rfl
@[simp] theorem settled_trOff : (c.settled).trOff = c.trOff := rfl
@[simp] theorem settled_trErr : (c.settled).trErr = c.trErr := rfl
@[simp] theorem settled_trLaps : (c.settled).trLaps = c.trLaps := rfl
@[simp] theorem settled_phase : (c.settled).phase = c.phase := rfl
@[simp] theorem settled_act : (c.settled).act = c.act := rfl
@[simp] theorem settled_actNo : (c.settled).actNo = c.actNo := rfl
@[simp] theorem settled_inflight : (c.settled).inflight = c.inflight := rfl
@[simp] theorem settled_outbox : (c.settled).outbox = c.outbox := rfl
@[simp] theorem settled_exroute : (c.settled).exroute = c.exroute := rfl
@[simp] theorem settled_lines : (c.settled).lines = c.lines := rfl
@[simp] theorem settled_ilines : (c.settled).ilines = c.ilines := rfl
@[simp] theorem settled_fenceStamp : (c.settled).fenceStamp = c.fenceStamp := rfl
@[simp] theorem settled_fetchStamp : (c.settled).fetchStamp = c.fetchStamp := rfl
@[simp] theorem settled_fenced : (c.settled).fenced = c.fenced := rfl
@[simp] theorem settled_fetchFenced : (c.settled).fetchFenced = c.fetchFenced := rfl
@[simp] theorem settled_slots : (c.settled).slots = c.slots := rfl
@[simp] theorem settled_slotCount : (c.settled).slotCount = c.slotCount := rfl
@[simp] theorem settled_queues : (c.settled).queues = c.queues := rfl
@[simp] theorem settled_mops : (c.settled).mops = c.mops := rfl
@[simp] theorem settled_rep : (c.settled).rep = c.rep := rfl
@[simp] theorem settled_buffered : (c.settled).buffered = c.buffered := rfl
@[simp] theorem settled_dqTop : (c.settled).dqTop = c.dqTop := rfl
@[simp] theorem settled_dqBot : (c.settled).dqBot = c.dqBot := rfl
@[simp] theorem settled_dqMeta : (c.settled).dqMeta = c.dqMeta := rfl
@[simp] theorem settled_pushBuf : (c.settled).pushBuf = c.pushBuf := rfl
@[simp] theorem settled_lrun : (c.settled).lrun = c.lrun := rfl
@[simp] theorem settled_rrLat : (c.settled).rrLat = c.rrLat := rfl
@[simp] theorem settled_rrBulk : (c.settled).rrBulk = c.rrBulk := rfl
@[simp] theorem settled_park : (c.settled).park = c.park := rfl
@[simp] theorem settled_parkRec : (c.settled).parkRec = c.parkRec := rfl
@[simp] theorem settled_parkNo : (c.settled).parkNo = c.parkNo := rfl
@[simp] theorem settled_packets : (c.settled).packets = c.packets := rfl
@[simp] theorem settled_frozenWait : (c.settled).frozenWait = c.frozenWait := rfl
@[simp] theorem settled_frozenCause : (c.settled).frozenCause = c.frozenCause := rfl
@[simp] theorem settled_frozenEntry : (c.settled).frozenEntry = c.frozenEntry := rfl
@[simp] theorem settled_followers : (c.settled).followers = c.followers := rfl
@[simp] theorem settled_carPc : (c.settled).carPc = c.carPc := rfl
@[simp] theorem settled_carIns : (c.settled).carIns = c.carIns := rfl
@[simp] theorem settled_trBuf : (c.settled).trBuf = c.trBuf := rfl
@[simp] theorem settled_trDate : (c.settled).trDate = c.trDate := rfl
@[simp] theorem settled_trSince : (c.settled).trSince = c.trSince := rfl
@[simp] theorem settled_trState : (c.settled).trState = c.trState := rfl
@[simp] theorem settled_trHeld : (c.settled).trHeld = c.trHeld := rfl
@[simp] theorem settled_smpint : (c.settled).smpint = c.smpint := rfl
@[simp] theorem settled_smpFrom : (c.settled).smpFrom = c.smpFrom := rfl
@[simp] theorem settled_bppc : (c.settled).bppc = c.bppc := rfl
@[simp] theorem settled_bptag : (c.settled).bptag = c.bptag := rfl
@[simp] theorem settled_dstatErr : (c.settled).dstatErr = c.dstatErr := rfl
@[simp] theorem settled_stopReq : (c.settled).stopReq = c.stopReq := rfl
@[simp] theorem settled_vacReq : (c.settled).vacReq = c.vacReq := rfl
@[simp] theorem settled_vac : (c.settled).vac = c.vac := rfl
@[simp] theorem settled_emdst : (c.settled).emdst = c.emdst := rfl
@[simp] theorem settled_emsrc : (c.settled).emsrc = c.emsrc := rfl
@[simp] theorem settled_emstat : (c.settled).emstat = c.emstat := rfl
@[simp] theorem settled_emBuf : (c.settled).emBuf = c.emBuf := rfl
@[simp] theorem settled_faulty : (c.settled).faulty = c.faulty := rfl
@[simp] theorem settled_fencedOff : (c.settled).fencedOff = c.fencedOff := rfl
@[simp] theorem settled_lastEcc : (c.settled).lastEcc = c.lastEcc := rfl
@[simp] theorem settled_insn : (c.settled).insn = c.insn := rfl
@[simp] theorem settled_pfx : (c.settled).pfx = c.pfx := rfl
@[simp] theorem settled_repAt : (c.settled).repAt = c.repAt := rfl
@[simp] theorem settled_committed : (c.settled).committed = false := rfl
@[simp] theorem settled_noAbort : (c.settled).noAbort = false := rfl
@[simp] theorem settled_closing : (c.settled).closing = c.closing := rfl
@[simp] theorem settled_spared : (c.settled).spared = c.spared := rfl
@[simp] theorem settled_orphan : (c.settled).orphan = c.orphan := rfl
@[simp] theorem settled_image : (c.settled).image = [] := rfl
@[simp] theorem settled_trapsDue : (c.settled).trapsDue = none := rfl
@[simp] theorem goTo_sregs : (c.goTo pc).sregs = c.sregs := rfl
@[simp] theorem goTo_sfull : (c.goTo pc).sfull = c.sfull := rfl
@[simp] theorem goTo_vregs : (c.goTo pc).vregs = c.vregs := rfl
@[simp] theorem goTo_vfull : (c.goTo pc).vfull = c.vfull := rfl
@[simp] theorem goTo_masks : (c.goTo pc).masks = c.masks := rfl
@[simp] theorem goTo_flags : (c.goTo pc).flags = c.flags := rfl
@[simp] theorem goTo_tiles : (c.goTo pc).tiles = c.tiles := rfl
@[simp] theorem goTo_pc : (c.goTo pc).pc = pc := rfl
@[simp] theorem goTo_rpc : (c.goTo pc).rpc = c.rpc := rfl
@[simp] theorem goTo_tf : (c.goTo pc).tf = c.tf := rfl
@[simp] theorem goTo_isat : (c.goTo pc).isat = c.isat := rfl
@[simp] theorem goTo_sa : (c.goTo pc).sa = c.sa := rfl
@[simp] theorem goTo_sb : (c.goTo pc).sb = c.sb := rfl
@[simp] theorem goTo_c8 : (c.goTo pc).c8 = c.c8 := rfl
@[simp] theorem goTo_c4 : (c.goTo pc).c4 = c.c4 := rfl
@[simp] theorem goTo_lidx : (c.goTo pc).lidx = c.lidx := rfl
@[simp] theorem goTo_clsLat : (c.goTo pc).clsLat = c.clsLat := rfl
@[simp] theorem goTo_clsOrigin : (c.goTo pc).clsOrigin = c.clsOrigin := rfl
@[simp] theorem goTo_clsFill : (c.goTo pc).clsFill = c.clsFill := rfl
@[simp] theorem goTo_sguard : (c.goTo pc).sguard = c.sguard := rfl
@[simp] theorem goTo_fcsr : (c.goTo pc).fcsr = c.fcsr := rfl
@[simp] theorem goTo_seed : (c.goTo pc).seed = c.seed := rfl
@[simp] theorem goTo_creg : (c.goTo pc).creg = c.creg := rfl
@[simp] theorem goTo_crscScale : (c.goTo pc).crscScale = c.crscScale := rfl
@[simp] theorem goTo_crscNf : (c.goTo pc).crscNf = c.crscNf := rfl
@[simp] theorem goTo_crscCtx : (c.goTo pc).crscCtx = c.crscCtx := rfl
@[simp] theorem goTo_crscValid : (c.goTo pc).crscValid = c.crscValid := rfl
@[simp] theorem goTo_aborts : (c.goTo pc).aborts = c.aborts := rfl
@[simp] theorem goTo_surr : (c.goTo pc).surr = c.surr := rfl
@[simp] theorem goTo_ydl : (c.goTo pc).ydl = c.ydl := rfl
@[simp] theorem goTo_mfl : (c.goTo pc).mfl = c.mfl := rfl
@[simp] theorem goTo_wnote : (c.goTo pc).wnote = c.wnote := rfl
@[simp] theorem goTo_cvPos : (c.goTo pc).cvPos = c.cvPos := rfl
@[simp] theorem goTo_cvSize : (c.goTo pc).cvSize = c.cvSize := rfl
@[simp] theorem goTo_optH : (c.goTo pc).optH = c.optH := rfl
@[simp] theorem goTo_trEn : (c.goTo pc).trEn = c.trEn := rfl
@[simp] theorem goTo_trSize : (c.goTo pc).trSize = c.trSize := rfl
@[simp] theorem goTo_trObj : (c.goTo pc).trObj = c.trObj := rfl
@[simp] theorem goTo_trOff : (c.goTo pc).trOff = c.trOff := rfl
@[simp] theorem goTo_trErr : (c.goTo pc).trErr = c.trErr := rfl
@[simp] theorem goTo_trLaps : (c.goTo pc).trLaps = c.trLaps := rfl
@[simp] theorem goTo_phase : (c.goTo pc).phase = c.ready := rfl
@[simp] theorem goTo_act : (c.goTo pc).act = c.act := rfl
@[simp] theorem goTo_actNo : (c.goTo pc).actNo = c.actNo := rfl
@[simp] theorem goTo_inflight : (c.goTo pc).inflight = c.inflight := rfl
@[simp] theorem goTo_outbox : (c.goTo pc).outbox = c.outbox := rfl
@[simp] theorem goTo_exroute : (c.goTo pc).exroute = c.exroute := rfl
@[simp] theorem goTo_lines : (c.goTo pc).lines = c.lines := rfl
@[simp] theorem goTo_ilines : (c.goTo pc).ilines = c.ilines := rfl
@[simp] theorem goTo_fenceStamp : (c.goTo pc).fenceStamp = c.fenceStamp := rfl
@[simp] theorem goTo_fetchStamp : (c.goTo pc).fetchStamp = c.fetchStamp := rfl
@[simp] theorem goTo_fenced : (c.goTo pc).fenced = c.fenced := rfl
@[simp] theorem goTo_fetchFenced : (c.goTo pc).fetchFenced = c.fetchFenced := rfl
@[simp] theorem goTo_slots : (c.goTo pc).slots = c.slots := rfl
@[simp] theorem goTo_slotCount : (c.goTo pc).slotCount = c.slotCount := rfl
@[simp] theorem goTo_queues : (c.goTo pc).queues = c.queues := rfl
@[simp] theorem goTo_mops : (c.goTo pc).mops = c.mops := rfl
@[simp] theorem goTo_rep : (c.goTo pc).rep = c.rep := rfl
@[simp] theorem goTo_buffered : (c.goTo pc).buffered = c.buffered := rfl
@[simp] theorem goTo_dqTop : (c.goTo pc).dqTop = c.dqTop := rfl
@[simp] theorem goTo_dqBot : (c.goTo pc).dqBot = c.dqBot := rfl
@[simp] theorem goTo_dqMeta : (c.goTo pc).dqMeta = c.dqMeta := rfl
@[simp] theorem goTo_pushBuf : (c.goTo pc).pushBuf = c.pushBuf := rfl
@[simp] theorem goTo_lrun : (c.goTo pc).lrun = c.lrun := rfl
@[simp] theorem goTo_rrLat : (c.goTo pc).rrLat = c.rrLat := rfl
@[simp] theorem goTo_rrBulk : (c.goTo pc).rrBulk = c.rrBulk := rfl
@[simp] theorem goTo_park : (c.goTo pc).park = c.park := rfl
@[simp] theorem goTo_parkRec : (c.goTo pc).parkRec = c.parkRec := rfl
@[simp] theorem goTo_parkNo : (c.goTo pc).parkNo = c.parkNo := rfl
@[simp] theorem goTo_packets : (c.goTo pc).packets = c.packets := rfl
@[simp] theorem goTo_frozenWait : (c.goTo pc).frozenWait = c.frozenWait := rfl
@[simp] theorem goTo_frozenCause : (c.goTo pc).frozenCause = c.frozenCause := rfl
@[simp] theorem goTo_frozenEntry : (c.goTo pc).frozenEntry = c.frozenEntry := rfl
@[simp] theorem goTo_followers : (c.goTo pc).followers = c.followers := rfl
@[simp] theorem goTo_carPc : (c.goTo pc).carPc = c.carPc := rfl
@[simp] theorem goTo_carIns : (c.goTo pc).carIns = c.carIns := rfl
@[simp] theorem goTo_trBuf : (c.goTo pc).trBuf = c.trBuf := rfl
@[simp] theorem goTo_trDate : (c.goTo pc).trDate = c.trDate := rfl
@[simp] theorem goTo_trSince : (c.goTo pc).trSince = c.trSince := rfl
@[simp] theorem goTo_trState : (c.goTo pc).trState = c.trState := rfl
@[simp] theorem goTo_trHeld : (c.goTo pc).trHeld = c.trHeld := rfl
@[simp] theorem goTo_smpint : (c.goTo pc).smpint = c.smpint := rfl
@[simp] theorem goTo_smpFrom : (c.goTo pc).smpFrom = c.smpFrom := rfl
@[simp] theorem goTo_bppc : (c.goTo pc).bppc = c.bppc := rfl
@[simp] theorem goTo_bptag : (c.goTo pc).bptag = c.bptag := rfl
@[simp] theorem goTo_dstatErr : (c.goTo pc).dstatErr = c.dstatErr := rfl
@[simp] theorem goTo_stopReq : (c.goTo pc).stopReq = c.stopReq := rfl
@[simp] theorem goTo_vacReq : (c.goTo pc).vacReq = c.vacReq := rfl
@[simp] theorem goTo_vac : (c.goTo pc).vac = c.vac := rfl
@[simp] theorem goTo_emdst : (c.goTo pc).emdst = c.emdst := rfl
@[simp] theorem goTo_emsrc : (c.goTo pc).emsrc = c.emsrc := rfl
@[simp] theorem goTo_emstat : (c.goTo pc).emstat = c.emstat := rfl
@[simp] theorem goTo_emBuf : (c.goTo pc).emBuf = c.emBuf := rfl
@[simp] theorem goTo_faulty : (c.goTo pc).faulty = c.faulty := rfl
@[simp] theorem goTo_fencedOff : (c.goTo pc).fencedOff = c.fencedOff := rfl
@[simp] theorem goTo_lastEcc : (c.goTo pc).lastEcc = c.lastEcc := rfl
@[simp] theorem goTo_insn : (c.goTo pc).insn = c.insn := rfl
@[simp] theorem goTo_pfx : (c.goTo pc).pfx = c.pfx := rfl
@[simp] theorem goTo_repAt : (c.goTo pc).repAt = c.repAt := rfl
@[simp] theorem goTo_committed : (c.goTo pc).committed = false := rfl
@[simp] theorem goTo_noAbort : (c.goTo pc).noAbort = false := rfl
@[simp] theorem goTo_closing : (c.goTo pc).closing = c.closing := rfl
@[simp] theorem goTo_spared : (c.goTo pc).spared = c.spared := rfl
@[simp] theorem goTo_orphan : (c.goTo pc).orphan = c.orphan := rfl
@[simp] theorem goTo_image : (c.goTo pc).image = [] := rfl
@[simp] theorem goTo_trapsDue : (c.goTo pc).trapsDue = none := rfl
@[simp] theorem stepped_sregs : (c.stepped).sregs = c.sregs := rfl
@[simp] theorem stepped_sfull : (c.stepped).sfull = c.sfull := rfl
@[simp] theorem stepped_vregs : (c.stepped).vregs = c.vregs := rfl
@[simp] theorem stepped_vfull : (c.stepped).vfull = c.vfull := rfl
@[simp] theorem stepped_masks : (c.stepped).masks = c.masks := rfl
@[simp] theorem stepped_flags : (c.stepped).flags = c.flags := rfl
@[simp] theorem stepped_tiles : (c.stepped).tiles = c.tiles := rfl
@[simp] theorem stepped_pc : (c.stepped).pc = c.next := rfl
@[simp] theorem stepped_rpc : (c.stepped).rpc = c.rpc := rfl
@[simp] theorem stepped_tf : (c.stepped).tf = c.tf := rfl
@[simp] theorem stepped_isat : (c.stepped).isat = c.isat := rfl
@[simp] theorem stepped_sa : (c.stepped).sa = c.sa := rfl
@[simp] theorem stepped_sb : (c.stepped).sb = c.sb := rfl
@[simp] theorem stepped_c8 : (c.stepped).c8 = c.c8 := rfl
@[simp] theorem stepped_c4 : (c.stepped).c4 = c.c4 := rfl
@[simp] theorem stepped_lidx : (c.stepped).lidx = c.lidx := rfl
@[simp] theorem stepped_clsLat : (c.stepped).clsLat = c.clsLat := rfl
@[simp] theorem stepped_clsOrigin : (c.stepped).clsOrigin = c.clsOrigin := rfl
@[simp] theorem stepped_clsFill : (c.stepped).clsFill = c.clsFill := rfl
@[simp] theorem stepped_sguard : (c.stepped).sguard = c.sguard := rfl
@[simp] theorem stepped_fcsr : (c.stepped).fcsr = c.fcsr := rfl
@[simp] theorem stepped_seed : (c.stepped).seed = c.seed := rfl
@[simp] theorem stepped_creg : (c.stepped).creg = c.creg := rfl
@[simp] theorem stepped_crscScale : (c.stepped).crscScale = c.crscScale := rfl
@[simp] theorem stepped_crscNf : (c.stepped).crscNf = c.crscNf := rfl
@[simp] theorem stepped_crscCtx : (c.stepped).crscCtx = c.crscCtx := rfl
@[simp] theorem stepped_crscValid : (c.stepped).crscValid = c.crscValid := rfl
@[simp] theorem stepped_aborts : (c.stepped).aborts = c.aborts := rfl
@[simp] theorem stepped_surr : (c.stepped).surr = c.surr := rfl
@[simp] theorem stepped_ydl : (c.stepped).ydl = c.ydl := rfl
@[simp] theorem stepped_mfl : (c.stepped).mfl = c.mfl := rfl
@[simp] theorem stepped_wnote : (c.stepped).wnote = c.wnote := rfl
@[simp] theorem stepped_cvPos : (c.stepped).cvPos = c.cvPos := rfl
@[simp] theorem stepped_cvSize : (c.stepped).cvSize = c.cvSize := rfl
@[simp] theorem stepped_optH : (c.stepped).optH = c.optH := rfl
@[simp] theorem stepped_trEn : (c.stepped).trEn = c.trEn := rfl
@[simp] theorem stepped_trSize : (c.stepped).trSize = c.trSize := rfl
@[simp] theorem stepped_trObj : (c.stepped).trObj = c.trObj := rfl
@[simp] theorem stepped_trOff : (c.stepped).trOff = c.trOff := rfl
@[simp] theorem stepped_trErr : (c.stepped).trErr = c.trErr := rfl
@[simp] theorem stepped_trLaps : (c.stepped).trLaps = c.trLaps := rfl
@[simp] theorem stepped_phase : (c.stepped).phase = c.ready := rfl
@[simp] theorem stepped_act : (c.stepped).act = c.act := rfl
@[simp] theorem stepped_actNo : (c.stepped).actNo = c.actNo := rfl
@[simp] theorem stepped_inflight : (c.stepped).inflight = c.inflight := rfl
@[simp] theorem stepped_outbox : (c.stepped).outbox = c.outbox := rfl
@[simp] theorem stepped_exroute : (c.stepped).exroute = c.exroute := rfl
@[simp] theorem stepped_lines : (c.stepped).lines = c.lines := rfl
@[simp] theorem stepped_ilines : (c.stepped).ilines = c.ilines := rfl
@[simp] theorem stepped_fenceStamp : (c.stepped).fenceStamp = c.fenceStamp := rfl
@[simp] theorem stepped_fetchStamp : (c.stepped).fetchStamp = c.fetchStamp := rfl
@[simp] theorem stepped_fenced : (c.stepped).fenced = c.fenced := rfl
@[simp] theorem stepped_fetchFenced : (c.stepped).fetchFenced = c.fetchFenced := rfl
@[simp] theorem stepped_slots : (c.stepped).slots = c.slots := rfl
@[simp] theorem stepped_slotCount : (c.stepped).slotCount = c.slotCount := rfl
@[simp] theorem stepped_queues : (c.stepped).queues = c.queues := rfl
@[simp] theorem stepped_mops : (c.stepped).mops = c.mops := rfl
@[simp] theorem stepped_rep : (c.stepped).rep = c.rep := rfl
@[simp] theorem stepped_buffered : (c.stepped).buffered = c.buffered := rfl
@[simp] theorem stepped_dqTop : (c.stepped).dqTop = c.dqTop := rfl
@[simp] theorem stepped_dqBot : (c.stepped).dqBot = c.dqBot := rfl
@[simp] theorem stepped_dqMeta : (c.stepped).dqMeta = c.dqMeta := rfl
@[simp] theorem stepped_pushBuf : (c.stepped).pushBuf = c.pushBuf := rfl
@[simp] theorem stepped_lrun : (c.stepped).lrun = c.lrun := rfl
@[simp] theorem stepped_rrLat : (c.stepped).rrLat = c.rrLat := rfl
@[simp] theorem stepped_rrBulk : (c.stepped).rrBulk = c.rrBulk := rfl
@[simp] theorem stepped_park : (c.stepped).park = c.park := rfl
@[simp] theorem stepped_parkRec : (c.stepped).parkRec = c.parkRec := rfl
@[simp] theorem stepped_parkNo : (c.stepped).parkNo = c.parkNo := rfl
@[simp] theorem stepped_packets : (c.stepped).packets = c.packets := rfl
@[simp] theorem stepped_frozenWait : (c.stepped).frozenWait = c.frozenWait := rfl
@[simp] theorem stepped_frozenCause : (c.stepped).frozenCause = c.frozenCause := rfl
@[simp] theorem stepped_frozenEntry : (c.stepped).frozenEntry = c.frozenEntry := rfl
@[simp] theorem stepped_followers : (c.stepped).followers = c.followers := rfl
@[simp] theorem stepped_carPc : (c.stepped).carPc = c.carPc := rfl
@[simp] theorem stepped_carIns : (c.stepped).carIns = c.carIns := rfl
@[simp] theorem stepped_trBuf : (c.stepped).trBuf = c.trBuf := rfl
@[simp] theorem stepped_trDate : (c.stepped).trDate = c.trDate := rfl
@[simp] theorem stepped_trSince : (c.stepped).trSince = c.trSince := rfl
@[simp] theorem stepped_trState : (c.stepped).trState = c.trState := rfl
@[simp] theorem stepped_trHeld : (c.stepped).trHeld = c.trHeld := rfl
@[simp] theorem stepped_smpint : (c.stepped).smpint = c.smpint := rfl
@[simp] theorem stepped_smpFrom : (c.stepped).smpFrom = c.smpFrom := rfl
@[simp] theorem stepped_bppc : (c.stepped).bppc = c.bppc := rfl
@[simp] theorem stepped_bptag : (c.stepped).bptag = c.bptag := rfl
@[simp] theorem stepped_dstatErr : (c.stepped).dstatErr = c.dstatErr := rfl
@[simp] theorem stepped_stopReq : (c.stepped).stopReq = c.stopReq := rfl
@[simp] theorem stepped_vacReq : (c.stepped).vacReq = c.vacReq := rfl
@[simp] theorem stepped_vac : (c.stepped).vac = c.vac := rfl
@[simp] theorem stepped_emdst : (c.stepped).emdst = c.emdst := rfl
@[simp] theorem stepped_emsrc : (c.stepped).emsrc = c.emsrc := rfl
@[simp] theorem stepped_emstat : (c.stepped).emstat = c.emstat := rfl
@[simp] theorem stepped_emBuf : (c.stepped).emBuf = c.emBuf := rfl
@[simp] theorem stepped_faulty : (c.stepped).faulty = c.faulty := rfl
@[simp] theorem stepped_fencedOff : (c.stepped).fencedOff = c.fencedOff := rfl
@[simp] theorem stepped_lastEcc : (c.stepped).lastEcc = c.lastEcc := rfl
@[simp] theorem stepped_insn : (c.stepped).insn = c.insn := rfl
@[simp] theorem stepped_pfx : (c.stepped).pfx = c.pfx := rfl
@[simp] theorem stepped_repAt : (c.stepped).repAt = c.repAt := rfl
@[simp] theorem stepped_committed : (c.stepped).committed = false := rfl
@[simp] theorem stepped_noAbort : (c.stepped).noAbort = false := rfl
@[simp] theorem stepped_closing : (c.stepped).closing = c.closing := rfl
@[simp] theorem stepped_spared : (c.stepped).spared = c.spared := rfl
@[simp] theorem stepped_orphan : (c.stepped).orphan = c.orphan := rfl
@[simp] theorem stepped_image : (c.stepped).image = [] := rfl
@[simp] theorem stepped_trapsDue : (c.stepped).trapsDue = none := rfl
@[simp] theorem renewed_sregs : (c.renewed).sregs = c.sregs := rfl
@[simp] theorem renewed_sfull : (c.renewed).sfull = c.sfull := rfl
@[simp] theorem renewed_vregs : (c.renewed).vregs = c.vregs := rfl
@[simp] theorem renewed_vfull : (c.renewed).vfull = c.vfull := rfl
@[simp] theorem renewed_masks : (c.renewed).masks = c.masks := rfl
@[simp] theorem renewed_flags : (c.renewed).flags = c.flags := rfl
@[simp] theorem renewed_tiles : (c.renewed).tiles = c.tiles := rfl
@[simp] theorem renewed_pc : (c.renewed).pc = c.next := rfl
@[simp] theorem renewed_rpc : (c.renewed).rpc = c.next := rfl
@[simp] theorem renewed_tf : (c.renewed).tf = c.tf := rfl
@[simp] theorem renewed_isat : (c.renewed).isat = c.isat := rfl
@[simp] theorem renewed_sa : (c.renewed).sa = c.sa := rfl
@[simp] theorem renewed_sb : (c.renewed).sb = c.sb := rfl
@[simp] theorem renewed_c8 : (c.renewed).c8 = c.c8 := rfl
@[simp] theorem renewed_c4 : (c.renewed).c4 = c.c4 := rfl
@[simp] theorem renewed_lidx : (c.renewed).lidx = c.lidx := rfl
@[simp] theorem renewed_clsLat : (c.renewed).clsLat = c.clsLat := rfl
@[simp] theorem renewed_clsOrigin : (c.renewed).clsOrigin = c.clsOrigin := rfl
@[simp] theorem renewed_clsFill : (c.renewed).clsFill = c.clsFill := rfl
@[simp] theorem renewed_sguard : (c.renewed).sguard = c.sguard := rfl
@[simp] theorem renewed_fcsr : (c.renewed).fcsr = c.fcsr := rfl
@[simp] theorem renewed_seed : (c.renewed).seed = c.seed := rfl
@[simp] theorem renewed_creg : (c.renewed).creg = c.creg := rfl
@[simp] theorem renewed_crscScale : (c.renewed).crscScale = c.crscScale := rfl
@[simp] theorem renewed_crscNf : (c.renewed).crscNf = c.crscNf := rfl
@[simp] theorem renewed_crscCtx : (c.renewed).crscCtx = c.crscCtx := rfl
@[simp] theorem renewed_crscValid : (c.renewed).crscValid = c.crscValid := rfl
@[simp] theorem renewed_aborts : (c.renewed).aborts = c.aborts := rfl
@[simp] theorem renewed_surr : (c.renewed).surr = c.surr := rfl
@[simp] theorem renewed_ydl : (c.renewed).ydl = c.ydl := rfl
@[simp] theorem renewed_mfl : (c.renewed).mfl = c.mfl := rfl
@[simp] theorem renewed_wnote : (c.renewed).wnote = c.wnote := rfl
@[simp] theorem renewed_cvPos : (c.renewed).cvPos = c.cvPos := rfl
@[simp] theorem renewed_cvSize : (c.renewed).cvSize = c.cvSize := rfl
@[simp] theorem renewed_optH : (c.renewed).optH = c.optH := rfl
@[simp] theorem renewed_trEn : (c.renewed).trEn = c.trEn := rfl
@[simp] theorem renewed_trSize : (c.renewed).trSize = c.trSize := rfl
@[simp] theorem renewed_trObj : (c.renewed).trObj = c.trObj := rfl
@[simp] theorem renewed_trOff : (c.renewed).trOff = c.trOff := rfl
@[simp] theorem renewed_trErr : (c.renewed).trErr = c.trErr := rfl
@[simp] theorem renewed_trLaps : (c.renewed).trLaps = c.trLaps := rfl
@[simp] theorem renewed_phase : (c.renewed).phase = c.ready := rfl
@[simp] theorem renewed_act : (c.renewed).act = c.act := rfl
@[simp] theorem renewed_actNo : (c.renewed).actNo = c.actNo := rfl
@[simp] theorem renewed_inflight : (c.renewed).inflight = c.inflight := rfl
@[simp] theorem renewed_outbox : (c.renewed).outbox = c.outbox := rfl
@[simp] theorem renewed_exroute : (c.renewed).exroute = c.exroute := rfl
@[simp] theorem renewed_lines : (c.renewed).lines = c.lines := rfl
@[simp] theorem renewed_ilines : (c.renewed).ilines = c.ilines := rfl
@[simp] theorem renewed_fenceStamp : (c.renewed).fenceStamp = c.fenceStamp := rfl
@[simp] theorem renewed_fetchStamp : (c.renewed).fetchStamp = c.fetchStamp := rfl
@[simp] theorem renewed_fenced : (c.renewed).fenced = c.fenced := rfl
@[simp] theorem renewed_fetchFenced : (c.renewed).fetchFenced = c.fetchFenced := rfl
@[simp] theorem renewed_slots : (c.renewed).slots = c.slots := rfl
@[simp] theorem renewed_slotCount : (c.renewed).slotCount = c.slotCount := rfl
@[simp] theorem renewed_queues : (c.renewed).queues = c.queues := rfl
@[simp] theorem renewed_mops : (c.renewed).mops = c.mops := rfl
@[simp] theorem renewed_rep : (c.renewed).rep = c.rep := rfl
@[simp] theorem renewed_buffered : (c.renewed).buffered = c.buffered := rfl
@[simp] theorem renewed_dqTop : (c.renewed).dqTop = c.dqTop := rfl
@[simp] theorem renewed_dqBot : (c.renewed).dqBot = c.dqBot := rfl
@[simp] theorem renewed_dqMeta : (c.renewed).dqMeta = c.dqMeta := rfl
@[simp] theorem renewed_pushBuf : (c.renewed).pushBuf = c.pushBuf := rfl
@[simp] theorem renewed_lrun : (c.renewed).lrun = c.lrun := rfl
@[simp] theorem renewed_rrLat : (c.renewed).rrLat = c.rrLat := rfl
@[simp] theorem renewed_rrBulk : (c.renewed).rrBulk = c.rrBulk := rfl
@[simp] theorem renewed_park : (c.renewed).park = c.park := rfl
@[simp] theorem renewed_parkRec : (c.renewed).parkRec = c.parkRec := rfl
@[simp] theorem renewed_parkNo : (c.renewed).parkNo = c.parkNo := rfl
@[simp] theorem renewed_packets : (c.renewed).packets = c.packets := rfl
@[simp] theorem renewed_frozenWait : (c.renewed).frozenWait = c.frozenWait := rfl
@[simp] theorem renewed_frozenCause : (c.renewed).frozenCause = c.frozenCause := rfl
@[simp] theorem renewed_frozenEntry : (c.renewed).frozenEntry = c.frozenEntry := rfl
@[simp] theorem renewed_followers : (c.renewed).followers = c.followers := rfl
@[simp] theorem renewed_carPc : (c.renewed).carPc = c.carPc := rfl
@[simp] theorem renewed_carIns : (c.renewed).carIns = c.carIns := rfl
@[simp] theorem renewed_trBuf : (c.renewed).trBuf = c.trBuf := rfl
@[simp] theorem renewed_trDate : (c.renewed).trDate = c.trDate := rfl
@[simp] theorem renewed_trSince : (c.renewed).trSince = c.trSince := rfl
@[simp] theorem renewed_trState : (c.renewed).trState = c.trState := rfl
@[simp] theorem renewed_trHeld : (c.renewed).trHeld = c.trHeld := rfl
@[simp] theorem renewed_smpint : (c.renewed).smpint = c.smpint := rfl
@[simp] theorem renewed_smpFrom : (c.renewed).smpFrom = c.smpFrom := rfl
@[simp] theorem renewed_bppc : (c.renewed).bppc = c.bppc := rfl
@[simp] theorem renewed_bptag : (c.renewed).bptag = c.bptag := rfl
@[simp] theorem renewed_dstatErr : (c.renewed).dstatErr = c.dstatErr := rfl
@[simp] theorem renewed_stopReq : (c.renewed).stopReq = c.stopReq := rfl
@[simp] theorem renewed_vacReq : (c.renewed).vacReq = c.vacReq := rfl
@[simp] theorem renewed_vac : (c.renewed).vac = c.vac := rfl
@[simp] theorem renewed_emdst : (c.renewed).emdst = c.emdst := rfl
@[simp] theorem renewed_emsrc : (c.renewed).emsrc = c.emsrc := rfl
@[simp] theorem renewed_emstat : (c.renewed).emstat = c.emstat := rfl
@[simp] theorem renewed_emBuf : (c.renewed).emBuf = c.emBuf := rfl
@[simp] theorem renewed_faulty : (c.renewed).faulty = c.faulty := rfl
@[simp] theorem renewed_fencedOff : (c.renewed).fencedOff = c.fencedOff := rfl
@[simp] theorem renewed_lastEcc : (c.renewed).lastEcc = c.lastEcc := rfl
@[simp] theorem renewed_insn : (c.renewed).insn = c.insn := rfl
@[simp] theorem renewed_pfx : (c.renewed).pfx = c.pfx := rfl
@[simp] theorem renewed_repAt : (c.renewed).repAt = c.repAt := rfl
@[simp] theorem renewed_committed : (c.renewed).committed = false := rfl
@[simp] theorem renewed_noAbort : (c.renewed).noAbort = false := rfl
@[simp] theorem renewed_closing : (c.renewed).closing = c.closing := rfl
@[simp] theorem renewed_spared : (c.renewed).spared = c.spared := rfl
@[simp] theorem renewed_orphan : (c.renewed).orphan = c.orphan := rfl
@[simp] theorem renewed_image : (c.renewed).image = [] := rfl
@[simp] theorem renewed_trapsDue : (c.renewed).trapsDue = none := rfl
@[simp] theorem commitRegion_sregs : (commitRegion c).sregs = c.sregs := rfl
@[simp] theorem commitRegion_sfull : (commitRegion c).sfull = c.sfull := rfl
@[simp] theorem commitRegion_vregs : (commitRegion c).vregs = c.vregs := rfl
@[simp] theorem commitRegion_vfull : (commitRegion c).vfull = c.vfull := rfl
@[simp] theorem commitRegion_masks : (commitRegion c).masks = c.masks := rfl
@[simp] theorem commitRegion_flags : (commitRegion c).flags = c.flags := rfl
@[simp] theorem commitRegion_tiles : (commitRegion c).tiles = c.tiles := rfl
@[simp] theorem commitRegion_pc : (commitRegion c).pc = c.pc := rfl
@[simp] theorem commitRegion_rpc : (commitRegion c).rpc = if c.repAt.isSome then c.rep.after else c.pc := rfl
@[simp] theorem commitRegion_tf : (commitRegion c).tf = c.tf := rfl
@[simp] theorem commitRegion_isat : (commitRegion c).isat = c.isat := rfl
@[simp] theorem commitRegion_sa : (commitRegion c).sa = c.sa := rfl
@[simp] theorem commitRegion_sb : (commitRegion c).sb = c.sb := rfl
@[simp] theorem commitRegion_c8 : (commitRegion c).c8 = c.c8 := rfl
@[simp] theorem commitRegion_c4 : (commitRegion c).c4 = c.c4 := rfl
@[simp] theorem commitRegion_lidx : (commitRegion c).lidx = c.lidx := rfl
@[simp] theorem commitRegion_clsLat : (commitRegion c).clsLat = c.clsLat := rfl
@[simp] theorem commitRegion_clsOrigin : (commitRegion c).clsOrigin = c.clsOrigin := rfl
@[simp] theorem commitRegion_clsFill : (commitRegion c).clsFill = c.clsFill := rfl
@[simp] theorem commitRegion_sguard : (commitRegion c).sguard = c.sguard := rfl
@[simp] theorem commitRegion_fcsr : (commitRegion c).fcsr = c.fcsr := rfl
@[simp] theorem commitRegion_seed : (commitRegion c).seed = c.seed := rfl
@[simp] theorem commitRegion_creg : (commitRegion c).creg = c.creg := rfl
@[simp] theorem commitRegion_crscScale : (commitRegion c).crscScale = c.crscScale := rfl
@[simp] theorem commitRegion_crscNf : (commitRegion c).crscNf = c.crscNf := rfl
@[simp] theorem commitRegion_crscCtx : (commitRegion c).crscCtx = c.crscCtx := rfl
@[simp] theorem commitRegion_crscValid : (commitRegion c).crscValid = c.crscValid := rfl
@[simp] theorem commitRegion_aborts : (commitRegion c).aborts = c.aborts := rfl
@[simp] theorem commitRegion_surr : (commitRegion c).surr = c.surr := rfl
@[simp] theorem commitRegion_ydl : (commitRegion c).ydl = c.ydl := rfl
@[simp] theorem commitRegion_mfl : (commitRegion c).mfl = c.mfl := rfl
@[simp] theorem commitRegion_wnote : (commitRegion c).wnote = c.wnote := rfl
@[simp] theorem commitRegion_cvPos : (commitRegion c).cvPos = c.cvPos := rfl
@[simp] theorem commitRegion_cvSize : (commitRegion c).cvSize = c.cvSize := rfl
@[simp] theorem commitRegion_optH : (commitRegion c).optH = c.optH := rfl
@[simp] theorem commitRegion_trEn : (commitRegion c).trEn = c.trEn := rfl
@[simp] theorem commitRegion_trSize : (commitRegion c).trSize = c.trSize := rfl
@[simp] theorem commitRegion_trObj : (commitRegion c).trObj = c.trObj := rfl
@[simp] theorem commitRegion_trOff : (commitRegion c).trOff = c.trOff := rfl
@[simp] theorem commitRegion_trErr : (commitRegion c).trErr = c.trErr := rfl
@[simp] theorem commitRegion_trLaps : (commitRegion c).trLaps = c.trLaps := rfl
@[simp] theorem commitRegion_phase : (commitRegion c).phase = c.phase := rfl
@[simp] theorem commitRegion_act : (commitRegion c).act = c.act := rfl
@[simp] theorem commitRegion_actNo : (commitRegion c).actNo = c.actNo := rfl
@[simp] theorem commitRegion_inflight : (commitRegion c).inflight = c.inflight := rfl
@[simp] theorem commitRegion_outbox : (commitRegion c).outbox = c.outbox.map fun e => if c.repAt.isSome && e.late then e else { e with committed := true } := rfl
@[simp] theorem commitRegion_exroute : (commitRegion c).exroute = c.exroute := rfl
@[simp] theorem commitRegion_lines : (commitRegion c).lines = c.lines.map fun l => { l with unc := false } := rfl
@[simp] theorem commitRegion_ilines : (commitRegion c).ilines = c.ilines := rfl
@[simp] theorem commitRegion_fenceStamp : (commitRegion c).fenceStamp = c.fenceStamp := rfl
@[simp] theorem commitRegion_fetchStamp : (commitRegion c).fetchStamp = c.fetchStamp := rfl
@[simp] theorem commitRegion_fenced : (commitRegion c).fenced = c.fenced := rfl
@[simp] theorem commitRegion_fetchFenced : (commitRegion c).fetchFenced = c.fetchFenced := rfl
@[simp] theorem commitRegion_slots : (commitRegion c).slots = c.slots := rfl
@[simp] theorem commitRegion_slotCount : (commitRegion c).slotCount = c.slotCount := rfl
@[simp] theorem commitRegion_queues : (commitRegion c).queues = c.queues := rfl
@[simp] theorem commitRegion_mops : (commitRegion c).mops = c.mops := rfl
@[simp] theorem commitRegion_rep : (commitRegion c).rep = c.rep := rfl
@[simp] theorem commitRegion_buffered : (commitRegion c).buffered = c.buffered := rfl
@[simp] theorem commitRegion_dqTop : (commitRegion c).dqTop = c.dqTop := rfl
@[simp] theorem commitRegion_dqBot : (commitRegion c).dqBot = c.dqBot := rfl
@[simp] theorem commitRegion_dqMeta : (commitRegion c).dqMeta = c.dqMeta := rfl
@[simp] theorem commitRegion_pushBuf : (commitRegion c).pushBuf = c.pushBuf := rfl
@[simp] theorem commitRegion_lrun : (commitRegion c).lrun = c.lrun := rfl
@[simp] theorem commitRegion_rrLat : (commitRegion c).rrLat = c.rrLat := rfl
@[simp] theorem commitRegion_rrBulk : (commitRegion c).rrBulk = c.rrBulk := rfl
@[simp] theorem commitRegion_park : (commitRegion c).park = c.park := rfl
@[simp] theorem commitRegion_parkRec : (commitRegion c).parkRec = c.parkRec := rfl
@[simp] theorem commitRegion_parkNo : (commitRegion c).parkNo = c.parkNo := rfl
@[simp] theorem commitRegion_packets : (commitRegion c).packets = c.packets := rfl
@[simp] theorem commitRegion_frozenWait : (commitRegion c).frozenWait = c.frozenWait := rfl
@[simp] theorem commitRegion_frozenCause : (commitRegion c).frozenCause = c.frozenCause := rfl
@[simp] theorem commitRegion_frozenEntry : (commitRegion c).frozenEntry = c.frozenEntry := rfl
@[simp] theorem commitRegion_followers : (commitRegion c).followers = c.followers := rfl
@[simp] theorem commitRegion_carPc : (commitRegion c).carPc = c.carPc := rfl
@[simp] theorem commitRegion_carIns : (commitRegion c).carIns = c.carIns := rfl
@[simp] theorem commitRegion_trBuf : (commitRegion c).trBuf = c.trBuf := rfl
@[simp] theorem commitRegion_trDate : (commitRegion c).trDate = c.trDate := rfl
@[simp] theorem commitRegion_trSince : (commitRegion c).trSince = c.trSince := rfl
@[simp] theorem commitRegion_trState : (commitRegion c).trState = c.trState := rfl
@[simp] theorem commitRegion_trHeld : (commitRegion c).trHeld = c.trHeld := rfl
@[simp] theorem commitRegion_smpint : (commitRegion c).smpint = c.smpint := rfl
@[simp] theorem commitRegion_smpFrom : (commitRegion c).smpFrom = c.smpFrom := rfl
@[simp] theorem commitRegion_bppc : (commitRegion c).bppc = c.bppc := rfl
@[simp] theorem commitRegion_bptag : (commitRegion c).bptag = c.bptag := rfl
@[simp] theorem commitRegion_dstatErr : (commitRegion c).dstatErr = c.dstatErr := rfl
@[simp] theorem commitRegion_stopReq : (commitRegion c).stopReq = c.stopReq := rfl
@[simp] theorem commitRegion_vacReq : (commitRegion c).vacReq = c.vacReq := rfl
@[simp] theorem commitRegion_vac : (commitRegion c).vac = c.vac := rfl
@[simp] theorem commitRegion_emdst : (commitRegion c).emdst = c.emdst := rfl
@[simp] theorem commitRegion_emsrc : (commitRegion c).emsrc = c.emsrc := rfl
@[simp] theorem commitRegion_emstat : (commitRegion c).emstat = c.emstat := rfl
@[simp] theorem commitRegion_emBuf : (commitRegion c).emBuf = c.emBuf := rfl
@[simp] theorem commitRegion_faulty : (commitRegion c).faulty = c.faulty := rfl
@[simp] theorem commitRegion_fencedOff : (commitRegion c).fencedOff = c.fencedOff := rfl
@[simp] theorem commitRegion_lastEcc : (commitRegion c).lastEcc = none := rfl
@[simp] theorem commitRegion_insn : (commitRegion c).insn = c.insn := rfl
@[simp] theorem commitRegion_pfx : (commitRegion c).pfx = c.pfx := rfl
@[simp] theorem commitRegion_repAt : (commitRegion c).repAt = c.repAt := rfl
@[simp] theorem commitRegion_committed : (commitRegion c).committed = c.committed := rfl
@[simp] theorem commitRegion_noAbort : (commitRegion c).noAbort = c.noAbort := rfl
@[simp] theorem commitRegion_closing : (commitRegion c).closing = c.closing := rfl
@[simp] theorem commitRegion_spared : (commitRegion c).spared = c.spared := rfl
@[simp] theorem commitRegion_orphan : (commitRegion c).orphan = c.orphan := rfl
@[simp] theorem commitRegion_image : (commitRegion c).image = c.image := rfl
@[simp] theorem commitRegion_trapsDue : (commitRegion c).trapsDue = c.trapsDue := rfl
@[simp] theorem freeze_sregs : (c.freeze).sregs = c.sregs := rfl
@[simp] theorem freeze_sfull : (c.freeze).sfull = c.sfull := rfl
@[simp] theorem freeze_vregs : (c.freeze).vregs = c.vregs := rfl
@[simp] theorem freeze_vfull : (c.freeze).vfull = c.vfull := rfl
@[simp] theorem freeze_masks : (c.freeze).masks = c.masks := rfl
@[simp] theorem freeze_flags : (c.freeze).flags = c.flags := rfl
@[simp] theorem freeze_tiles : (c.freeze).tiles = c.tiles := rfl
@[simp] theorem freeze_pc : (c.freeze).pc = c.pc := rfl
@[simp] theorem freeze_rpc : (c.freeze).rpc = c.rpc := rfl
@[simp] theorem freeze_tf : (c.freeze).tf = c.tf := rfl
@[simp] theorem freeze_isat : (c.freeze).isat = c.isat := rfl
@[simp] theorem freeze_sa : (c.freeze).sa = c.sa := rfl
@[simp] theorem freeze_sb : (c.freeze).sb = c.sb := rfl
@[simp] theorem freeze_c8 : (c.freeze).c8 = c.c8 := rfl
@[simp] theorem freeze_c4 : (c.freeze).c4 = c.c4 := rfl
@[simp] theorem freeze_lidx : (c.freeze).lidx = c.lidx := rfl
@[simp] theorem freeze_clsLat : (c.freeze).clsLat = c.clsLat := rfl
@[simp] theorem freeze_clsOrigin : (c.freeze).clsOrigin = c.clsOrigin := rfl
@[simp] theorem freeze_clsFill : (c.freeze).clsFill = c.clsFill := rfl
@[simp] theorem freeze_sguard : (c.freeze).sguard = c.sguard := rfl
@[simp] theorem freeze_fcsr : (c.freeze).fcsr = c.fcsr := rfl
@[simp] theorem freeze_seed : (c.freeze).seed = c.seed := rfl
@[simp] theorem freeze_creg : (c.freeze).creg = c.creg := rfl
@[simp] theorem freeze_crscScale : (c.freeze).crscScale = c.crscScale := rfl
@[simp] theorem freeze_crscNf : (c.freeze).crscNf = c.crscNf := rfl
@[simp] theorem freeze_crscCtx : (c.freeze).crscCtx = c.crscCtx := rfl
@[simp] theorem freeze_crscValid : (c.freeze).crscValid = c.crscValid := rfl
@[simp] theorem freeze_aborts : (c.freeze).aborts = c.aborts := rfl
@[simp] theorem freeze_surr : (c.freeze).surr = c.surr := rfl
@[simp] theorem freeze_ydl : (c.freeze).ydl = c.ydl := rfl
@[simp] theorem freeze_mfl : (c.freeze).mfl = c.mfl := rfl
@[simp] theorem freeze_wnote : (c.freeze).wnote = c.wnote := rfl
@[simp] theorem freeze_cvPos : (c.freeze).cvPos = c.cvPos := rfl
@[simp] theorem freeze_cvSize : (c.freeze).cvSize = c.cvSize := rfl
@[simp] theorem freeze_optH : (c.freeze).optH = c.optH := rfl
@[simp] theorem freeze_trEn : (c.freeze).trEn = c.trEn := rfl
@[simp] theorem freeze_trSize : (c.freeze).trSize = c.trSize := rfl
@[simp] theorem freeze_trObj : (c.freeze).trObj = c.trObj := rfl
@[simp] theorem freeze_trOff : (c.freeze).trOff = c.trOff := rfl
@[simp] theorem freeze_trErr : (c.freeze).trErr = c.trErr := rfl
@[simp] theorem freeze_trLaps : (c.freeze).trLaps = c.trLaps := rfl
@[simp] theorem freeze_phase : (c.freeze).phase = .frozen := rfl
@[simp] theorem freeze_act : (c.freeze).act = c.act := rfl
@[simp] theorem freeze_actNo : (c.freeze).actNo = c.actNo := rfl
@[simp] theorem freeze_inflight : (c.freeze).inflight = c.inflight := rfl
@[simp] theorem freeze_outbox : (c.freeze).outbox = c.outbox := rfl
@[simp] theorem freeze_exroute : (c.freeze).exroute = c.exroute := rfl
@[simp] theorem freeze_lines : (c.freeze).lines = c.lines := rfl
@[simp] theorem freeze_ilines : (c.freeze).ilines = c.ilines := rfl
@[simp] theorem freeze_fenceStamp : (c.freeze).fenceStamp = c.fenceStamp := rfl
@[simp] theorem freeze_fetchStamp : (c.freeze).fetchStamp = c.fetchStamp := rfl
@[simp] theorem freeze_fenced : (c.freeze).fenced = c.fenced := rfl
@[simp] theorem freeze_fetchFenced : (c.freeze).fetchFenced = c.fetchFenced := rfl
@[simp] theorem freeze_slots : (c.freeze).slots = c.slots := rfl
@[simp] theorem freeze_slotCount : (c.freeze).slotCount = c.slotCount := rfl
@[simp] theorem freeze_queues : (c.freeze).queues = c.queues := rfl
@[simp] theorem freeze_mops : (c.freeze).mops = c.mops := rfl
@[simp] theorem freeze_buffered : (c.freeze).buffered = c.buffered := rfl
@[simp] theorem freeze_dqTop : (c.freeze).dqTop = c.dqTop := rfl
@[simp] theorem freeze_dqBot : (c.freeze).dqBot = c.dqBot := rfl
@[simp] theorem freeze_dqMeta : (c.freeze).dqMeta = c.dqMeta := rfl
@[simp] theorem freeze_pushBuf : (c.freeze).pushBuf = c.pushBuf := rfl
@[simp] theorem freeze_lrun : (c.freeze).lrun = c.lrun := rfl
@[simp] theorem freeze_rrLat : (c.freeze).rrLat = c.rrLat := rfl
@[simp] theorem freeze_rrBulk : (c.freeze).rrBulk = c.rrBulk := rfl
@[simp] theorem freeze_park : (c.freeze).park = c.park := rfl
@[simp] theorem freeze_parkRec : (c.freeze).parkRec = c.parkRec := rfl
@[simp] theorem freeze_parkNo : (c.freeze).parkNo = c.parkNo := rfl
@[simp] theorem freeze_packets : (c.freeze).packets = c.packets := rfl
@[simp] theorem freeze_frozenCause : (c.freeze).frozenCause = c.frozenCause := rfl
@[simp] theorem freeze_frozenEntry : (c.freeze).frozenEntry = false := rfl
@[simp] theorem freeze_followers : (c.freeze).followers = c.followers := rfl
@[simp] theorem freeze_carPc : (c.freeze).carPc = c.carPc := rfl
@[simp] theorem freeze_carIns : (c.freeze).carIns = c.carIns := rfl
@[simp] theorem freeze_trBuf : (c.freeze).trBuf = c.trBuf := rfl
@[simp] theorem freeze_trDate : (c.freeze).trDate = c.trDate := rfl
@[simp] theorem freeze_trSince : (c.freeze).trSince = c.trSince := rfl
@[simp] theorem freeze_trState : (c.freeze).trState = c.trState := rfl
@[simp] theorem freeze_trHeld : (c.freeze).trHeld = c.trHeld := rfl
@[simp] theorem freeze_smpint : (c.freeze).smpint = c.smpint := rfl
@[simp] theorem freeze_smpFrom : (c.freeze).smpFrom = c.smpFrom := rfl
@[simp] theorem freeze_bppc : (c.freeze).bppc = c.bppc := rfl
@[simp] theorem freeze_bptag : (c.freeze).bptag = c.bptag := rfl
@[simp] theorem freeze_dstatErr : (c.freeze).dstatErr = c.dstatErr := rfl
@[simp] theorem freeze_stopReq : (c.freeze).stopReq = c.stopReq := rfl
@[simp] theorem freeze_vacReq : (c.freeze).vacReq = c.vacReq := rfl
@[simp] theorem freeze_vac : (c.freeze).vac = c.vac := rfl
@[simp] theorem freeze_emdst : (c.freeze).emdst = c.emdst := rfl
@[simp] theorem freeze_emsrc : (c.freeze).emsrc = c.emsrc := rfl
@[simp] theorem freeze_emstat : (c.freeze).emstat = c.emstat := rfl
@[simp] theorem freeze_emBuf : (c.freeze).emBuf = c.emBuf := rfl
@[simp] theorem freeze_faulty : (c.freeze).faulty = c.faulty := rfl
@[simp] theorem freeze_fencedOff : (c.freeze).fencedOff = c.fencedOff := rfl
@[simp] theorem freeze_lastEcc : (c.freeze).lastEcc = c.lastEcc := rfl
@[simp] theorem freeze_insn : (c.freeze).insn = c.insn := rfl
@[simp] theorem freeze_pfx : (c.freeze).pfx = c.pfx := rfl
@[simp] theorem freeze_repAt : (c.freeze).repAt = c.repAt := rfl
@[simp] theorem freeze_committed : (c.freeze).committed = c.committed := rfl
@[simp] theorem freeze_noAbort : (c.freeze).noAbort = c.noAbort := rfl
@[simp] theorem freeze_closing : (c.freeze).closing = c.closing := rfl
@[simp] theorem freeze_spared : (c.freeze).spared = c.spared := rfl
@[simp] theorem freeze_orphan : (c.freeze).orphan = c.orphan := rfl
@[simp] theorem freeze_image : (c.freeze).image = c.image := rfl
@[simp] theorem freeze_trapsDue : (c.freeze).trapsDue = c.trapsDue := rfl
@[simp] theorem setS_vregs : (c.setS k v).vregs = c.vregs := by unfold Core.setS; split <;> rfl
@[simp] theorem setS_vfull : (c.setS k v).vfull = c.vfull := by unfold Core.setS; split <;> rfl
@[simp] theorem setS_masks : (c.setS k v).masks = c.masks := by unfold Core.setS; split <;> rfl
@[simp] theorem setS_flags : (c.setS k v).flags = c.flags := by unfold Core.setS; split <;> rfl
@[simp] theorem setS_tiles : (c.setS k v).tiles = c.tiles := by unfold Core.setS; split <;> rfl
@[simp] theorem setS_pc : (c.setS k v).pc = c.pc := by unfold Core.setS; split <;> rfl
@[simp] theorem setS_rpc : (c.setS k v).rpc = c.rpc := by unfold Core.setS; split <;> rfl
@[simp] theorem setS_tf : (c.setS k v).tf = c.tf := by unfold Core.setS; split <;> rfl
@[simp] theorem setS_isat : (c.setS k v).isat = c.isat := by unfold Core.setS; split <;> rfl
@[simp] theorem setS_sa : (c.setS k v).sa = c.sa := by unfold Core.setS; split <;> rfl
@[simp] theorem setS_sb : (c.setS k v).sb = c.sb := by unfold Core.setS; split <;> rfl
@[simp] theorem setS_c8 : (c.setS k v).c8 = c.c8 := by unfold Core.setS; split <;> rfl
@[simp] theorem setS_c4 : (c.setS k v).c4 = c.c4 := by unfold Core.setS; split <;> rfl
@[simp] theorem setS_lidx : (c.setS k v).lidx = c.lidx := by unfold Core.setS; split <;> rfl
@[simp] theorem setS_clsLat : (c.setS k v).clsLat = c.clsLat := by unfold Core.setS; split <;> rfl
@[simp] theorem setS_clsOrigin : (c.setS k v).clsOrigin = c.clsOrigin := by unfold Core.setS; split <;> rfl
@[simp] theorem setS_clsFill : (c.setS k v).clsFill = c.clsFill := by unfold Core.setS; split <;> rfl
@[simp] theorem setS_sguard : (c.setS k v).sguard = c.sguard := by unfold Core.setS; split <;> rfl
@[simp] theorem setS_fcsr : (c.setS k v).fcsr = c.fcsr := by unfold Core.setS; split <;> rfl
@[simp] theorem setS_seed : (c.setS k v).seed = c.seed := by unfold Core.setS; split <;> rfl
@[simp] theorem setS_creg : (c.setS k v).creg = c.creg := by unfold Core.setS; split <;> rfl
@[simp] theorem setS_crscScale : (c.setS k v).crscScale = c.crscScale := by unfold Core.setS; split <;> rfl
@[simp] theorem setS_crscNf : (c.setS k v).crscNf = c.crscNf := by unfold Core.setS; split <;> rfl
@[simp] theorem setS_crscCtx : (c.setS k v).crscCtx = c.crscCtx := by unfold Core.setS; split <;> rfl
@[simp] theorem setS_crscValid : (c.setS k v).crscValid = c.crscValid := by unfold Core.setS; split <;> rfl
@[simp] theorem setS_aborts : (c.setS k v).aborts = c.aborts := by unfold Core.setS; split <;> rfl
@[simp] theorem setS_surr : (c.setS k v).surr = c.surr := by unfold Core.setS; split <;> rfl
@[simp] theorem setS_ydl : (c.setS k v).ydl = c.ydl := by unfold Core.setS; split <;> rfl
@[simp] theorem setS_mfl : (c.setS k v).mfl = c.mfl := by unfold Core.setS; split <;> rfl
@[simp] theorem setS_wnote : (c.setS k v).wnote = c.wnote := by unfold Core.setS; split <;> rfl
@[simp] theorem setS_cvPos : (c.setS k v).cvPos = c.cvPos := by unfold Core.setS; split <;> rfl
@[simp] theorem setS_cvSize : (c.setS k v).cvSize = c.cvSize := by unfold Core.setS; split <;> rfl
@[simp] theorem setS_optH : (c.setS k v).optH = c.optH := by unfold Core.setS; split <;> rfl
@[simp] theorem setS_trEn : (c.setS k v).trEn = c.trEn := by unfold Core.setS; split <;> rfl
@[simp] theorem setS_trSize : (c.setS k v).trSize = c.trSize := by unfold Core.setS; split <;> rfl
@[simp] theorem setS_trObj : (c.setS k v).trObj = c.trObj := by unfold Core.setS; split <;> rfl
@[simp] theorem setS_trOff : (c.setS k v).trOff = c.trOff := by unfold Core.setS; split <;> rfl
@[simp] theorem setS_trErr : (c.setS k v).trErr = c.trErr := by unfold Core.setS; split <;> rfl
@[simp] theorem setS_trLaps : (c.setS k v).trLaps = c.trLaps := by unfold Core.setS; split <;> rfl
@[simp] theorem setS_phase : (c.setS k v).phase = c.phase := by unfold Core.setS; split <;> rfl
@[simp] theorem setS_act : (c.setS k v).act = c.act := by unfold Core.setS; split <;> rfl
@[simp] theorem setS_actNo : (c.setS k v).actNo = c.actNo := by unfold Core.setS; split <;> rfl
@[simp] theorem setS_inflight : (c.setS k v).inflight = c.inflight := by unfold Core.setS; split <;> rfl
@[simp] theorem setS_outbox : (c.setS k v).outbox = c.outbox := by unfold Core.setS; split <;> rfl
@[simp] theorem setS_exroute : (c.setS k v).exroute = c.exroute := by unfold Core.setS; split <;> rfl
@[simp] theorem setS_lines : (c.setS k v).lines = c.lines := by unfold Core.setS; split <;> rfl
@[simp] theorem setS_ilines : (c.setS k v).ilines = c.ilines := by unfold Core.setS; split <;> rfl
@[simp] theorem setS_fenceStamp : (c.setS k v).fenceStamp = c.fenceStamp := by unfold Core.setS; split <;> rfl
@[simp] theorem setS_fetchStamp : (c.setS k v).fetchStamp = c.fetchStamp := by unfold Core.setS; split <;> rfl
@[simp] theorem setS_fenced : (c.setS k v).fenced = c.fenced := by unfold Core.setS; split <;> rfl
@[simp] theorem setS_fetchFenced : (c.setS k v).fetchFenced = c.fetchFenced := by unfold Core.setS; split <;> rfl
@[simp] theorem setS_slots : (c.setS k v).slots = c.slots := by unfold Core.setS; split <;> rfl
@[simp] theorem setS_slotCount : (c.setS k v).slotCount = c.slotCount := by unfold Core.setS; split <;> rfl
@[simp] theorem setS_queues : (c.setS k v).queues = c.queues := by unfold Core.setS; split <;> rfl
@[simp] theorem setS_mops : (c.setS k v).mops = c.mops := by unfold Core.setS; split <;> rfl
@[simp] theorem setS_rep : (c.setS k v).rep = c.rep := by unfold Core.setS; split <;> rfl
@[simp] theorem setS_buffered : (c.setS k v).buffered = c.buffered := by unfold Core.setS; split <;> rfl
@[simp] theorem setS_dqTop : (c.setS k v).dqTop = c.dqTop := by unfold Core.setS; split <;> rfl
@[simp] theorem setS_dqBot : (c.setS k v).dqBot = c.dqBot := by unfold Core.setS; split <;> rfl
@[simp] theorem setS_dqMeta : (c.setS k v).dqMeta = c.dqMeta := by unfold Core.setS; split <;> rfl
@[simp] theorem setS_pushBuf : (c.setS k v).pushBuf = c.pushBuf := by unfold Core.setS; split <;> rfl
@[simp] theorem setS_lrun : (c.setS k v).lrun = c.lrun := by unfold Core.setS; split <;> rfl
@[simp] theorem setS_rrLat : (c.setS k v).rrLat = c.rrLat := by unfold Core.setS; split <;> rfl
@[simp] theorem setS_rrBulk : (c.setS k v).rrBulk = c.rrBulk := by unfold Core.setS; split <;> rfl
@[simp] theorem setS_park : (c.setS k v).park = c.park := by unfold Core.setS; split <;> rfl
@[simp] theorem setS_parkRec : (c.setS k v).parkRec = c.parkRec := by unfold Core.setS; split <;> rfl
@[simp] theorem setS_parkNo : (c.setS k v).parkNo = c.parkNo := by unfold Core.setS; split <;> rfl
@[simp] theorem setS_packets : (c.setS k v).packets = c.packets := by unfold Core.setS; split <;> rfl
@[simp] theorem setS_frozenWait : (c.setS k v).frozenWait = c.frozenWait := by unfold Core.setS; split <;> rfl
@[simp] theorem setS_frozenCause : (c.setS k v).frozenCause = c.frozenCause := by unfold Core.setS; split <;> rfl
@[simp] theorem setS_frozenEntry : (c.setS k v).frozenEntry = c.frozenEntry := by unfold Core.setS; split <;> rfl
@[simp] theorem setS_followers : (c.setS k v).followers = c.followers := by unfold Core.setS; split <;> rfl
@[simp] theorem setS_carPc : (c.setS k v).carPc = c.carPc := by unfold Core.setS; split <;> rfl
@[simp] theorem setS_carIns : (c.setS k v).carIns = c.carIns := by unfold Core.setS; split <;> rfl
@[simp] theorem setS_trBuf : (c.setS k v).trBuf = c.trBuf := by unfold Core.setS; split <;> rfl
@[simp] theorem setS_trDate : (c.setS k v).trDate = c.trDate := by unfold Core.setS; split <;> rfl
@[simp] theorem setS_trSince : (c.setS k v).trSince = c.trSince := by unfold Core.setS; split <;> rfl
@[simp] theorem setS_trState : (c.setS k v).trState = c.trState := by unfold Core.setS; split <;> rfl
@[simp] theorem setS_trHeld : (c.setS k v).trHeld = c.trHeld := by unfold Core.setS; split <;> rfl
@[simp] theorem setS_smpint : (c.setS k v).smpint = c.smpint := by unfold Core.setS; split <;> rfl
@[simp] theorem setS_smpFrom : (c.setS k v).smpFrom = c.smpFrom := by unfold Core.setS; split <;> rfl
@[simp] theorem setS_bppc : (c.setS k v).bppc = c.bppc := by unfold Core.setS; split <;> rfl
@[simp] theorem setS_bptag : (c.setS k v).bptag = c.bptag := by unfold Core.setS; split <;> rfl
@[simp] theorem setS_dstatErr : (c.setS k v).dstatErr = c.dstatErr := by unfold Core.setS; split <;> rfl
@[simp] theorem setS_stopReq : (c.setS k v).stopReq = c.stopReq := by unfold Core.setS; split <;> rfl
@[simp] theorem setS_vacReq : (c.setS k v).vacReq = c.vacReq := by unfold Core.setS; split <;> rfl
@[simp] theorem setS_vac : (c.setS k v).vac = c.vac := by unfold Core.setS; split <;> rfl
@[simp] theorem setS_emdst : (c.setS k v).emdst = c.emdst := by unfold Core.setS; split <;> rfl
@[simp] theorem setS_emsrc : (c.setS k v).emsrc = c.emsrc := by unfold Core.setS; split <;> rfl
@[simp] theorem setS_emstat : (c.setS k v).emstat = c.emstat := by unfold Core.setS; split <;> rfl
@[simp] theorem setS_emBuf : (c.setS k v).emBuf = c.emBuf := by unfold Core.setS; split <;> rfl
@[simp] theorem setS_faulty : (c.setS k v).faulty = c.faulty := by unfold Core.setS; split <;> rfl
@[simp] theorem setS_fencedOff : (c.setS k v).fencedOff = c.fencedOff := by unfold Core.setS; split <;> rfl
@[simp] theorem setS_lastEcc : (c.setS k v).lastEcc = c.lastEcc := by unfold Core.setS; split <;> rfl
@[simp] theorem setS_insn : (c.setS k v).insn = c.insn := by unfold Core.setS; split <;> rfl
@[simp] theorem setS_pfx : (c.setS k v).pfx = c.pfx := by unfold Core.setS; split <;> rfl
@[simp] theorem setS_repAt : (c.setS k v).repAt = c.repAt := by unfold Core.setS; split <;> rfl
@[simp] theorem setS_committed : (c.setS k v).committed = c.committed := by unfold Core.setS; split <;> rfl
@[simp] theorem setS_noAbort : (c.setS k v).noAbort = c.noAbort := by unfold Core.setS; split <;> rfl
@[simp] theorem setS_closing : (c.setS k v).closing = c.closing := by unfold Core.setS; split <;> rfl
@[simp] theorem setS_spared : (c.setS k v).spared = c.spared := by unfold Core.setS; split <;> rfl
@[simp] theorem setS_orphan : (c.setS k v).orphan = c.orphan := by unfold Core.setS; split <;> rfl
@[simp] theorem setS_image : (c.setS k v).image = c.image := by unfold Core.setS; split <;> rfl
@[simp] theorem setS_trapsDue : (c.setS k v).trapsDue = c.trapsDue := by unfold Core.setS; split <;> rfl
@[simp] theorem emptyS_sregs : (c.emptyS k).sregs = c.sregs := by unfold Core.emptyS; split <;> rfl
@[simp] theorem emptyS_vregs : (c.emptyS k).vregs = c.vregs := by unfold Core.emptyS; split <;> rfl
@[simp] theorem emptyS_vfull : (c.emptyS k).vfull = c.vfull := by unfold Core.emptyS; split <;> rfl
@[simp] theorem emptyS_masks : (c.emptyS k).masks = c.masks := by unfold Core.emptyS; split <;> rfl
@[simp] theorem emptyS_flags : (c.emptyS k).flags = c.flags := by unfold Core.emptyS; split <;> rfl
@[simp] theorem emptyS_tiles : (c.emptyS k).tiles = c.tiles := by unfold Core.emptyS; split <;> rfl
@[simp] theorem emptyS_pc : (c.emptyS k).pc = c.pc := by unfold Core.emptyS; split <;> rfl
@[simp] theorem emptyS_rpc : (c.emptyS k).rpc = c.rpc := by unfold Core.emptyS; split <;> rfl
@[simp] theorem emptyS_tf : (c.emptyS k).tf = c.tf := by unfold Core.emptyS; split <;> rfl
@[simp] theorem emptyS_isat : (c.emptyS k).isat = c.isat := by unfold Core.emptyS; split <;> rfl
@[simp] theorem emptyS_sa : (c.emptyS k).sa = c.sa := by unfold Core.emptyS; split <;> rfl
@[simp] theorem emptyS_sb : (c.emptyS k).sb = c.sb := by unfold Core.emptyS; split <;> rfl
@[simp] theorem emptyS_c8 : (c.emptyS k).c8 = c.c8 := by unfold Core.emptyS; split <;> rfl
@[simp] theorem emptyS_c4 : (c.emptyS k).c4 = c.c4 := by unfold Core.emptyS; split <;> rfl
@[simp] theorem emptyS_lidx : (c.emptyS k).lidx = c.lidx := by unfold Core.emptyS; split <;> rfl
@[simp] theorem emptyS_clsLat : (c.emptyS k).clsLat = c.clsLat := by unfold Core.emptyS; split <;> rfl
@[simp] theorem emptyS_clsOrigin : (c.emptyS k).clsOrigin = c.clsOrigin := by unfold Core.emptyS; split <;> rfl
@[simp] theorem emptyS_clsFill : (c.emptyS k).clsFill = c.clsFill := by unfold Core.emptyS; split <;> rfl
@[simp] theorem emptyS_sguard : (c.emptyS k).sguard = c.sguard := by unfold Core.emptyS; split <;> rfl
@[simp] theorem emptyS_fcsr : (c.emptyS k).fcsr = c.fcsr := by unfold Core.emptyS; split <;> rfl
@[simp] theorem emptyS_seed : (c.emptyS k).seed = c.seed := by unfold Core.emptyS; split <;> rfl
@[simp] theorem emptyS_creg : (c.emptyS k).creg = c.creg := by unfold Core.emptyS; split <;> rfl
@[simp] theorem emptyS_crscScale : (c.emptyS k).crscScale = c.crscScale := by unfold Core.emptyS; split <;> rfl
@[simp] theorem emptyS_crscNf : (c.emptyS k).crscNf = c.crscNf := by unfold Core.emptyS; split <;> rfl
@[simp] theorem emptyS_crscCtx : (c.emptyS k).crscCtx = c.crscCtx := by unfold Core.emptyS; split <;> rfl
@[simp] theorem emptyS_crscValid : (c.emptyS k).crscValid = c.crscValid := by unfold Core.emptyS; split <;> rfl
@[simp] theorem emptyS_aborts : (c.emptyS k).aborts = c.aborts := by unfold Core.emptyS; split <;> rfl
@[simp] theorem emptyS_surr : (c.emptyS k).surr = c.surr := by unfold Core.emptyS; split <;> rfl
@[simp] theorem emptyS_ydl : (c.emptyS k).ydl = c.ydl := by unfold Core.emptyS; split <;> rfl
@[simp] theorem emptyS_mfl : (c.emptyS k).mfl = c.mfl := by unfold Core.emptyS; split <;> rfl
@[simp] theorem emptyS_wnote : (c.emptyS k).wnote = c.wnote := by unfold Core.emptyS; split <;> rfl
@[simp] theorem emptyS_cvPos : (c.emptyS k).cvPos = c.cvPos := by unfold Core.emptyS; split <;> rfl
@[simp] theorem emptyS_cvSize : (c.emptyS k).cvSize = c.cvSize := by unfold Core.emptyS; split <;> rfl
@[simp] theorem emptyS_optH : (c.emptyS k).optH = c.optH := by unfold Core.emptyS; split <;> rfl
@[simp] theorem emptyS_trEn : (c.emptyS k).trEn = c.trEn := by unfold Core.emptyS; split <;> rfl
@[simp] theorem emptyS_trSize : (c.emptyS k).trSize = c.trSize := by unfold Core.emptyS; split <;> rfl
@[simp] theorem emptyS_trObj : (c.emptyS k).trObj = c.trObj := by unfold Core.emptyS; split <;> rfl
@[simp] theorem emptyS_trOff : (c.emptyS k).trOff = c.trOff := by unfold Core.emptyS; split <;> rfl
@[simp] theorem emptyS_trErr : (c.emptyS k).trErr = c.trErr := by unfold Core.emptyS; split <;> rfl
@[simp] theorem emptyS_trLaps : (c.emptyS k).trLaps = c.trLaps := by unfold Core.emptyS; split <;> rfl
@[simp] theorem emptyS_phase : (c.emptyS k).phase = c.phase := by unfold Core.emptyS; split <;> rfl
@[simp] theorem emptyS_act : (c.emptyS k).act = c.act := by unfold Core.emptyS; split <;> rfl
@[simp] theorem emptyS_actNo : (c.emptyS k).actNo = c.actNo := by unfold Core.emptyS; split <;> rfl
@[simp] theorem emptyS_inflight : (c.emptyS k).inflight = c.inflight := by unfold Core.emptyS; split <;> rfl
@[simp] theorem emptyS_outbox : (c.emptyS k).outbox = c.outbox := by unfold Core.emptyS; split <;> rfl
@[simp] theorem emptyS_exroute : (c.emptyS k).exroute = c.exroute := by unfold Core.emptyS; split <;> rfl
@[simp] theorem emptyS_lines : (c.emptyS k).lines = c.lines := by unfold Core.emptyS; split <;> rfl
@[simp] theorem emptyS_ilines : (c.emptyS k).ilines = c.ilines := by unfold Core.emptyS; split <;> rfl
@[simp] theorem emptyS_fenceStamp : (c.emptyS k).fenceStamp = c.fenceStamp := by unfold Core.emptyS; split <;> rfl
@[simp] theorem emptyS_fetchStamp : (c.emptyS k).fetchStamp = c.fetchStamp := by unfold Core.emptyS; split <;> rfl
@[simp] theorem emptyS_fenced : (c.emptyS k).fenced = c.fenced := by unfold Core.emptyS; split <;> rfl
@[simp] theorem emptyS_fetchFenced : (c.emptyS k).fetchFenced = c.fetchFenced := by unfold Core.emptyS; split <;> rfl
@[simp] theorem emptyS_slots : (c.emptyS k).slots = c.slots := by unfold Core.emptyS; split <;> rfl
@[simp] theorem emptyS_slotCount : (c.emptyS k).slotCount = c.slotCount := by unfold Core.emptyS; split <;> rfl
@[simp] theorem emptyS_queues : (c.emptyS k).queues = c.queues := by unfold Core.emptyS; split <;> rfl
@[simp] theorem emptyS_mops : (c.emptyS k).mops = c.mops := by unfold Core.emptyS; split <;> rfl
@[simp] theorem emptyS_rep : (c.emptyS k).rep = c.rep := by unfold Core.emptyS; split <;> rfl
@[simp] theorem emptyS_buffered : (c.emptyS k).buffered = c.buffered := by unfold Core.emptyS; split <;> rfl
@[simp] theorem emptyS_dqTop : (c.emptyS k).dqTop = c.dqTop := by unfold Core.emptyS; split <;> rfl
@[simp] theorem emptyS_dqBot : (c.emptyS k).dqBot = c.dqBot := by unfold Core.emptyS; split <;> rfl
@[simp] theorem emptyS_dqMeta : (c.emptyS k).dqMeta = c.dqMeta := by unfold Core.emptyS; split <;> rfl
@[simp] theorem emptyS_pushBuf : (c.emptyS k).pushBuf = c.pushBuf := by unfold Core.emptyS; split <;> rfl
@[simp] theorem emptyS_lrun : (c.emptyS k).lrun = c.lrun := by unfold Core.emptyS; split <;> rfl
@[simp] theorem emptyS_rrLat : (c.emptyS k).rrLat = c.rrLat := by unfold Core.emptyS; split <;> rfl
@[simp] theorem emptyS_rrBulk : (c.emptyS k).rrBulk = c.rrBulk := by unfold Core.emptyS; split <;> rfl
@[simp] theorem emptyS_park : (c.emptyS k).park = c.park := by unfold Core.emptyS; split <;> rfl
@[simp] theorem emptyS_parkRec : (c.emptyS k).parkRec = c.parkRec := by unfold Core.emptyS; split <;> rfl
@[simp] theorem emptyS_parkNo : (c.emptyS k).parkNo = c.parkNo := by unfold Core.emptyS; split <;> rfl
@[simp] theorem emptyS_packets : (c.emptyS k).packets = c.packets := by unfold Core.emptyS; split <;> rfl
@[simp] theorem emptyS_frozenWait : (c.emptyS k).frozenWait = c.frozenWait := by unfold Core.emptyS; split <;> rfl
@[simp] theorem emptyS_frozenCause : (c.emptyS k).frozenCause = c.frozenCause := by unfold Core.emptyS; split <;> rfl
@[simp] theorem emptyS_frozenEntry : (c.emptyS k).frozenEntry = c.frozenEntry := by unfold Core.emptyS; split <;> rfl
@[simp] theorem emptyS_followers : (c.emptyS k).followers = c.followers := by unfold Core.emptyS; split <;> rfl
@[simp] theorem emptyS_carPc : (c.emptyS k).carPc = c.carPc := by unfold Core.emptyS; split <;> rfl
@[simp] theorem emptyS_carIns : (c.emptyS k).carIns = c.carIns := by unfold Core.emptyS; split <;> rfl
@[simp] theorem emptyS_trBuf : (c.emptyS k).trBuf = c.trBuf := by unfold Core.emptyS; split <;> rfl
@[simp] theorem emptyS_trDate : (c.emptyS k).trDate = c.trDate := by unfold Core.emptyS; split <;> rfl
@[simp] theorem emptyS_trSince : (c.emptyS k).trSince = c.trSince := by unfold Core.emptyS; split <;> rfl
@[simp] theorem emptyS_trState : (c.emptyS k).trState = c.trState := by unfold Core.emptyS; split <;> rfl
@[simp] theorem emptyS_trHeld : (c.emptyS k).trHeld = c.trHeld := by unfold Core.emptyS; split <;> rfl
@[simp] theorem emptyS_smpint : (c.emptyS k).smpint = c.smpint := by unfold Core.emptyS; split <;> rfl
@[simp] theorem emptyS_smpFrom : (c.emptyS k).smpFrom = c.smpFrom := by unfold Core.emptyS; split <;> rfl
@[simp] theorem emptyS_bppc : (c.emptyS k).bppc = c.bppc := by unfold Core.emptyS; split <;> rfl
@[simp] theorem emptyS_bptag : (c.emptyS k).bptag = c.bptag := by unfold Core.emptyS; split <;> rfl
@[simp] theorem emptyS_dstatErr : (c.emptyS k).dstatErr = c.dstatErr := by unfold Core.emptyS; split <;> rfl
@[simp] theorem emptyS_stopReq : (c.emptyS k).stopReq = c.stopReq := by unfold Core.emptyS; split <;> rfl
@[simp] theorem emptyS_vacReq : (c.emptyS k).vacReq = c.vacReq := by unfold Core.emptyS; split <;> rfl
@[simp] theorem emptyS_vac : (c.emptyS k).vac = c.vac := by unfold Core.emptyS; split <;> rfl
@[simp] theorem emptyS_emdst : (c.emptyS k).emdst = c.emdst := by unfold Core.emptyS; split <;> rfl
@[simp] theorem emptyS_emsrc : (c.emptyS k).emsrc = c.emsrc := by unfold Core.emptyS; split <;> rfl
@[simp] theorem emptyS_emstat : (c.emptyS k).emstat = c.emstat := by unfold Core.emptyS; split <;> rfl
@[simp] theorem emptyS_emBuf : (c.emptyS k).emBuf = c.emBuf := by unfold Core.emptyS; split <;> rfl
@[simp] theorem emptyS_faulty : (c.emptyS k).faulty = c.faulty := by unfold Core.emptyS; split <;> rfl
@[simp] theorem emptyS_fencedOff : (c.emptyS k).fencedOff = c.fencedOff := by unfold Core.emptyS; split <;> rfl
@[simp] theorem emptyS_lastEcc : (c.emptyS k).lastEcc = c.lastEcc := by unfold Core.emptyS; split <;> rfl
@[simp] theorem emptyS_insn : (c.emptyS k).insn = c.insn := by unfold Core.emptyS; split <;> rfl
@[simp] theorem emptyS_pfx : (c.emptyS k).pfx = c.pfx := by unfold Core.emptyS; split <;> rfl
@[simp] theorem emptyS_repAt : (c.emptyS k).repAt = c.repAt := by unfold Core.emptyS; split <;> rfl
@[simp] theorem emptyS_committed : (c.emptyS k).committed = c.committed := by unfold Core.emptyS; split <;> rfl
@[simp] theorem emptyS_noAbort : (c.emptyS k).noAbort = c.noAbort := by unfold Core.emptyS; split <;> rfl
@[simp] theorem emptyS_closing : (c.emptyS k).closing = c.closing := by unfold Core.emptyS; split <;> rfl
@[simp] theorem emptyS_spared : (c.emptyS k).spared = c.spared := by unfold Core.emptyS; split <;> rfl
@[simp] theorem emptyS_orphan : (c.emptyS k).orphan = c.orphan := by unfold Core.emptyS; split <;> rfl
@[simp] theorem emptyS_image : (c.emptyS k).image = c.image := by unfold Core.emptyS; split <;> rfl
@[simp] theorem emptyS_trapsDue : (c.emptyS k).trapsDue = c.trapsDue := by unfold Core.emptyS; split <;> rfl

@[simp] theorem setS_next : (c.setS k v).next = c.next := by simp [Core.next]
@[simp] theorem setS_ready : (c.setS k v).ready = c.ready := by simp [Core.ready]
@[simp] theorem commitRegion_next : (commitRegion c).next = c.next := rfl
@[simp] theorem commitRegion_ready : (commitRegion c).ready = c.ready := rfl
end

/-! ### Scalar registers (R47, R48) -/

section
variable (c : Core)

theorem bitSet_get (m : BitVec 32) {k : Nat} (hk : k < 32) (j : Nat) : (bitSet m k).getLsbD j = (m.getLsbD j || decide (j = k)) := by
  simp only [bitSet, BitVec.getLsbD_or, BitVec.getLsbD_shiftLeft]
  by_cases h : j = k
  · subst h; simp [hk]
  · have : (1#32).getLsbD (j - k) = decide (j - k = 0) := by
      cases e : j - k with
      | zero => rfl
      | succ n => simp [BitVec.getLsbD_one]
    rw [this]
    by_cases hl : j < k
    · simp [hl, h]
    · have : j - k ≠ 0 := by omega
      simp [this, h]

@[simp] theorem s_zero : c.s 0 = 0 := rfl
@[simp] theorem isFull_zero : c.isFull 0 = true := rfl
@[simp] theorem setS_zero (v : Word) : c.setS 0 v = c := rfl

theorem s_setS {k : Nat} (v : Word) (h : k ≠ 0) (hk : k < 32) : (c.setS k v).s k = v := by
  simp [Core.setS, Core.s, h, hk]

theorem s_setS_other {k j : Nat} (v : Word) (h : j ≠ k) : (c.setS k v).s j = c.s j := by
  unfold Core.setS Core.s
  by_cases h0 : k = 0
  · simp [h0]
  · simp [h0, Ne.symm h]

theorem isFull_setS {k : Nat} (v : Word) (hk : k < 32) (j : Nat) : (c.setS k v).isFull j = (c.isFull j || decide (j = k)) := by
  unfold Core.setS Core.isFull
  by_cases h0 : k = 0
  · subst h0; by_cases hj : j = 0 <;> simp [hj]
  · simp only [h0, if_false, bitSet_get _ hk]
    by_cases hj : j = 0 <;> simp [hj]

/-- A retired result is read back. -/
theorem s_result {d : BitVec 5} (v : Word) (h : d ≠ 0) : (c.result d v).s d.toNat = v :=
  s_setS c v (by simpa using fun e => h (BitVec.eq_of_toNat_eq (by simpa using e))) d.isLt

theorem s_result_other {d : BitVec 5} (v : Word) {j : Nat} (h : j ≠ d.toNat) : (c.result d v).s j = c.s j := s_setS_other c v h
end

end Sys2Proof.Machine
end

