-- ==== Sys2Proof/Laws/Act.lean ====
section
/-!
SUPPORT. What the shared operations of Ops, Operands, Alu and Branch do, once each: the lemmas that proofs cite instead of
unfolding them.
-/

namespace Sys2Proof.Machine

/-! ### The act -/

theorem pure_act {α : Type} (x : α) (s : State) : (pure x : Act α) s = .ok (x, s) := rfl

theorem bind_act {α β : Type} (m : Act α) (f : α → Act β) (s : State) :
    (m >>= f) s = match m s with
      | .ok (x, t) => f x t
      | .error e => .error e := by
  show (m s >>= fun p => f p.1 p.2) = _
  cases m s <;> rfl

theorem ask_act {α : Type} (f : Core → α) (s : State) : ask f s = .ok (f s.core, s) := rfl
theorem askS_act {α : Type} (f : State → α) (s : State) : askS f s = .ok (f s, s) := rfl
theorem change_act (f : Core → Core) (s : State) : change f s = .ok ((), s.now f) := rfl
theorem changeS_act (f : State → State) (s : State) : changeS f s = .ok ((), f s) := rfl

/-- A sequence of two acts that answers: both have answered, one after the other. -/
theorem bind_ok {α β : Type} {m : Act α} {f : α → Act β} {s u : State} {y : β} (h : (m >>= f) s = .ok (y, u)) :
    ∃ x t, m s = .ok (x, t) ∧ f x t = .ok (y, u) := by
  rw [bind_act] at h
  split at h
  · next x t e => exact ⟨x, t, e, h⟩
  · cases h

theorem require_true {s : State} {b : Bool} {e : Stop} (h : b = true) : require b e s = .ok ((), s) := by
  simp [require, h, pure_act]

theorem require_false {s : State} {b : Bool} {e : Stop} (h : b = false) : require b e s = .error e := by
  simp [require, h, stop]

/-- What `each` does, member by member. -/
theorem each_nil {α : Type} (f : α → Act Unit) (s : State) : each f [] s = .ok ((), s) := rfl
theorem each_cons {α : Type} (f : α → Act Unit) (x : α) (xs : List α) (s : State) :
    each f (x :: xs) s = (do f x; each f xs : Act Unit) s := rfl

/-- WHAT AN INSTRUCTION COMES TO: the state that its act answers, or what its stop comes to. -/
theorem finish_cases {m : Act Unit} {s t : State} (h : finish m s = .next t) :
    m s = .ok ((), t) ∨ ∃ e, m s = .error e ∧ t = takeStop e s := by
  simp only [finish, after, Host.Outcome.next.injEq] at h
  split at h
  · next u e => subst h; exact .inl e
  · next e he => subst h; exact .inr ⟨e, he, rfl⟩

/-- An act that answers gives that next state. -/
theorem finish_ok {m : Act Unit} {s t : State} (h : m s = .ok ((), t)) : finish m s = .next t := by
  simp [finish, after, h]

/-- An act that stops comes to what its stop comes to. -/
theorem finish_error {m : Act Unit} {s : State} {e : Stop} (h : m s = .error e) : finish m s = .next (takeStop e s) := by
  simp [finish, after, h]

/-- Every meaning built by `finish` goes on. -/
theorem finish_goes (m : Act Unit) (s : State) : Goes (finish m s) := ⟨_, rfl⟩

/-! ### Breakpoints -/

/-- Two cores that agree on breakpoints, activation and place in a caravan may fire the same ones. -/
theorem mayBreak_congr {c d : Core} (h1 : c.bppc = d.bppc) (h2 : c.bptag = d.bptag) (h3 : c.act = d.act) (h4 : c.cvPos = d.cvPos)
    (a : Word) : c.mayBreak a = d.mayBreak a := by
  simp only [Core.mayBreak, h1, h2, h3, h4]

/-- A breakpoint's test does not see the registers. -/
@[simp] theorem mayBreak_setS (c : Core) (k : Nat) (v a : Word) : (c.setS k v).mayBreak a = c.mayBreak a :=
  mayBreak_congr (by simp) (by simp) (by simp) (by simp) a

/-- A core in no caravan, or its leader, serves its own activation. -/
theorem serving_own {s : State} (h : s.core.cvPos = 0) : s.serving = s.core.act := by
  simp [State.serving, State.coreAt, h]

/-- No breakpoint fires where none may, whichever activation the core serves. -/
theorem breakHit_none {s : State} {a : Word} (h : s.core.mayBreak a = false) : breakHit s.core s.serving a = none := by
  by_cases hc : s.core.cvPos = 0
  · rw [serving_own hc]
    simpa [Core.mayBreak, breakHit, hc] using h
  · simp only [Core.mayBreak, List.any_eq_false] at h
    refine List.find?_eq_none.2 fun n hn hit => h n hn ?_
    simp only [Bool.and_eq_true] at hit ⊢
    exact ⟨hit.1, by simp [hc]⟩

/-! ### Scalar operands (R50, R51) -/

theorem readS_full {s : State} {r : BitVec 5} (t : BitVec 1) (h : s.core.Full r) :
    readS r t s = .ok (s.core.s r.toNat, s) := by
  simp [readS, show s.core.isFull r.toNat = true from h]

/-- An empty operand: the freeze of cause 0x02, or a wait at issue (R50). -/
theorem readS_empty {s : State} {r : BitVec 5} (t : BitVec 1) (h : ¬ s.core.Full r) (hr : s.core.repAt = none) :
    readS r t s = .error (if t = 1 then .trap { cause := 0x02 } else .stall (s.core.emptyReason false r.toNat)) := by
  have h' : s.core.isFull r.toNat = false := by simpa [Core.Full] using h
  by_cases ht : t = 1
  · subst ht; simp [readS, h', Core.repOwns, hr]
  · simp only [readS, h', Core.repOwns, hr, Option.isSome_none, Bool.false_and, Bool.or_self, Bool.false_eq_true, if_false, if_neg ht]

theorem awaitS_writable {s : State} {d : BitVec 5} (h : s.core.Writable d) : awaitS d s = .ok ((), s) := by
  simp [awaitS, h.1, h.2]

/-- An empty destination: a wait at issue (R51). -/
theorem awaitS_empty {s : State} {d : BitVec 5} (h : s.core.isFull d.toNat = false) (hr : s.core.repAt = none) :
    awaitS d s = .error (.stall (s.core.emptyReason false d.toNat)) := by
  simp [awaitS, h, Core.repOwns, hr]

theorem writeS_calm {s : State} (d : BitVec 5) (v : Word) (h : s.core.repAt = none) :
    writeS d v s = .ok ((), s.now (·.setS d.toNat v)) := by
  simp [writeS, change, State.now, Core.repOwns, h]

/-! ### Retirement (R81) -/

theorem breakAfter_none {s : State} {a : Word} (h : s.core.mayBreak a = false) : breakAfter a s = s := by
  simp only [breakAfter, breakHit_none h]

theorem retireTo_calm {s : State} (pc : Word) (h : s.core.Calm) : retireTo pc s = .ok ((), s.now (·.goTo pc)) := by
  have e : (s.now (·.goTo pc)).core.mayBreak s.core.pc = false := h.2
  have r : ¬ s.core.repAt.isSome = true := by simp [h.1]
  rw [retireTo, if_neg r]
  exact congrArg (fun t => Except.ok ((), t)) (breakAfter_none e)

theorem retire_calm {s : State} (h : s.core.Calm) : retire s = .ok ((), s.now Core.stepped) :=
  retireTo_calm s.core.next h

theorem retireCommit_calm {s : State} (h : s.core.Calm) : retireCommit s = .ok ((), s.now Core.renewed) := by
  have e : (s.now Core.renewed).core.mayBreak s.core.pc = false := h.2
  have r : ¬ s.core.repAt.isSome = true := by simp [h.1]
  show (if _ then _ else _) = _
  rw [if_neg r]
  exact congrArg (fun t => Except.ok ((), t)) (breakAfter_none e)

theorem calm_setS {c : Core} (k : Nat) (v : Word) (h : c.Calm) : (c.setS k v).Calm := by
  simpa [Core.Calm] using h

/-- A result written, and the instruction retired. -/
theorem write_retire {s : State} (d : BitVec 5) (v : Word) (h : s.core.Calm) :
    (do writeS d v; retire : Act Unit) s = .ok ((), s.now (·.result d v)) := by
  have h2 : (s.now (·.setS d.toNat v)).core.Calm := calm_setS d.toNat v h
  rw [bind_act, writeS_calm d v h.1]
  exact retire_calm h2

/-! ### Committing (R67, R68) -/

/-- Nothing of a settled core holds its commit back. -/
theorem mayCommit_settled {s : State} (h : s.core.Settled) : mayCommit s = .ok ((), s) := by
  obtain ⟨h1, h2, h3, h4, h5, h6⟩ := h
  have r : refusedEntry s.core = none := by
    simp only [refusedEntry, List.find?_eq_none]
    intro e he; simp [(h6 e he).2.1]
  have o : s.core.outbox.any (·.committed) = false := by
    rw [List.any_eq_false]
    intro e he; simp [(h6 e he).1]
  have g : ((decide (s.core.rep.state = 2) || decide (s.core.rep.state = 3)) && s.core.repAt.isNone) = false := by
    rw [decide_eq_false h3, decide_eq_false h4]; rfl
  simp only [mayCommit, g, r, o, h2]
  rfl

theorem each_recheck_none {s : State} : each recheckLine [] s = .ok ((), s) := rfl

theorem collect_recheck {es : List OutEntry} {s : State} (h : ∀ e ∈ es, e.recheck = false) :
    collect recheckEntry es s = .ok (es, s) := by
  induction es with
  | nil => rfl
  | cons e es ih =>
    have he : recheckEntry e s = .ok (e, s) := by simp [recheckEntry, h e (by simp)]
    rw [collect, bind_act, he]; dsimp only
    rw [bind_act, ih fun x hx => h x (by simp [hx])]
    rfl

/-- A COMMIT POINT on a settled core commits its region and changes nothing else. -/
theorem commitPoint_settled {s : State} (h : s.core.Settled) : commitPoint s = .ok ((), s.now commitRegion) := by
  have m := mayCommit_settled h
  obtain ⟨h1, h2, h3, h4, h5, h6⟩ := h
  have f : s.core.lines.filter (·.recheck) = [] := by
    rw [List.filter_eq_nil_iff]
    intro l hl; simp [(h5 l hl).1]
  have g : ¬ ((s.now fun c => commitRegion { c with outbox := s.core.outbox }).core.lines.any (·.uncached)) = true := by
    show ¬ ((s.core.lines.map fun l => { l with unc := false }).any (·.uncached)) = true
    rw [Bool.not_eq_true, List.any_eq_false]
    intro l hl
    obtain ⟨l', hl', rfl⟩ := List.mem_map.mp hl
    simpa [Line.uncached] using (h5 l' hl').2
  rw [commitPoint, bind_act, ask_act]; dsimp only
  simp only [h1, Bool.false_eq_true, if_false]
  rw [commitNow, bind_act, m]; dsimp only
  rw [bind_act, ask_act]; dsimp only
  rw [f, bind_act, each_recheck_none]; dsimp only
  rw [bind_act, ask_act]; dsimp only
  rw [bind_act, collect_recheck fun e he => (h6 e he).2.2]; dsimp only
  rw [bind_act, change_act]; dsimp only
  rw [bind_act, ask_act]; dsimp only
  rw [if_neg g]
  rfl

/-- A run whose turn has come is in its turn at a commit point too. -/
theorem orderCommit_ok {a : Word} {n : Nat} {s t : State} (h : orderRun a n s = .ok ((), t)) : orderCommit a n s = .ok ((), t) := by
  unfold orderCommit
  rw [h]

/-- At a commit point a run that waits while an entry is refused freezes the core on that entry; else it waits (R256). -/
theorem orderCommit_stall {a : Word} {n : Nat} {s : State} {why : BitVec 8} (h : orderRun a n s = .error (.stall why)) :
    orderCommit a n s = .error (match refusedEntry s.core with
      | some e => .trap (refusalTrap e)
      | none => .stall why) := by
  unfold orderCommit
  rw [h]
  cases refusedEntry s.core <;> rfl

/-- A calm core stays calm when its region commits. -/
theorem calm_commit {c : Core} (h : c.Calm) : (commitRegion c).Calm := h

/-! ### The outbox (R66, R69) -/

theorem post_room {s : State} {x : Cargo} {b : Bool} (h : s.core.outbox.length < 16) :
    post x b s = .ok ((), { s with core := { s.core with
      outbox := s.core.outbox ++
        [⟨x, issuer s.core s.serving, b, false, false, s.core.rep.state = 2 && s.core.repAt.isNone⟩] } }) := by
  rw [post, if_neg (by omega)]

theorem post_full {s : State} {x : Cargo} {b : Bool} (h : 16 ≤ s.core.outbox.length) :
    post x b s = .error (.trap { cause := 0x08, addr := x.addr }) := by
  rw [post, if_pos h]

/-! ### Taking a fault (R73, R74) -/

/-- TAKING A FAULT on a core that is in no caravan, commands nothing and traces nothing: it freezes, its packet waits, and nothing
of the package but that core changes. -/
theorem freezeOn_alone {s : State} (t : Trap) (hv : s.core.cvSize = 0) (hc : isCommand s.cid = false) (hf : traceFreeze s.cid s = s) :
    freezeOn t s = s.now fun c =>
      { c.freeze with
        repAt := none, frozenCause := t.cause, frozenEntry := t.entry.isSome, packets := c.packets ++ [packetOf t s] } := by
  unfold freezeOn
  dsimp only
  rw [if_neg (by simp [hv]), hf]
  have q : ∀ (u : State) (p : Packet), queuePacket u.cid p u = u.now fun c => { c with packets := c.packets ++ [p] } :=
    fun u p => modCore_self u _
  rw [q { s with core := { s.core.freeze with repAt := none, frozenCause := t.cause, frozenEntry := t.entry.isSome } } (packetOf t s)]
  rw [if_neg (by rw [show ∀ u : State, ∀ f, (u.now f).cid = u.cid from fun _ _ => rfl]; simp [hc])]
  rfl

/-- A faulting instruction waits for nothing more; where none waits, taking its fault is the freeze. -/
theorem takeFault_running {s : State} (t : Trap) (h : ∀ w, s.core.phase ≠ .wait w) : takeFault t s = freezeOn t s := by
  rw [takeFault, State.noWait]
  split
  · next w e => exact absurd e (h w)
  · rfl

/-- The fault of a captured instruction leaves the scalar pipeline's wait to the freeze (R222). -/
theorem takeFault_captured {s : State} (t : Trap) (h : s.core.repAt.isSome = true) : takeFault t s = freezeOn t s := by
  rw [takeFault, State.noWait]
  split <;> simp [h]

/-- A wait at issue changes the hold alone where no trace sees it. -/
theorem takeStop_stall {s : State} (why : BitVec 8) (h : s.core.trEn = false) : takeStop (.stall why) s = { s with held := true } := by
  have e : traceStall s.cid why s = s := by
    unfold traceStall traceIssue traceHold
    split <;> simp [h]
  exact congrArg (fun t : State => { t with held := true }) e

/-! ### Sequence records (R71, R223, R301) -/

theorem readable_ok {p : Nat} (a : Word) {s : State} (hr : reachable s p = true) (he : s.ecc.contains (blockOf p) = false) :
    readable p a s = .ok ((), s) := by
  rw [readable, hr, he]
  rfl

/-- An act that leaves the state does so for each member of a list. -/
theorem each_ok {α : Type} {f : α → Act Unit} {s : State} {xs : List α} (h : ∀ x ∈ xs, f x s = .ok ((), s)) : each f xs s = .ok ((), s) := by
  induction xs with
  | nil => rfl
  | cons x xs ih =>
    rw [each_cons, bind_act, h x (by simp)]
    exact ih fun y hy => h y (by simp [hy])

/-- Every block of a record answers, and holds no uncorrectable error. -/
abbrev SeqSound (s : State) (q : Nat) : Prop := ∀ b ∈ seqBlocks s q, reachable s b.1 = true ∧ s.ecc.contains (blockOf b.1) = false

theorem readSeq_sound {s : State} {q : Nat} (h : SeqSound s q) : readSeq q s = .ok ((), s) := by
  rw [readSeq, bind_act, askS_act]
  exact each_ok fun b hb => readable_ok b.2 (h b hb).1 (h b hb).2

theorem takesSeq_sound {s : State} {q : Nat} (h : SeqSound s q) : takesSeq q s = .ok ((), s) := by
  rw [takesSeq, List.find?_eq_none.mpr fun b hb => by simpa using (h b hb).2]

/-! ### The scalar shapes (R130, R134, R135) -/

theorem alu2_calm {f : Word → Word → Word} {o : RArgs} {s : State} (hc : s.core.Calm) (ha : s.core.Full o.a)
    (hb : s.core.Full o.b) (hd : s.core.Writable o.d) :
    finish (alu2 f o) s = .next (s.now (·.result o.d (f (s.core.s o.a.toNat) (s.core.s o.b.toNat)))) := by
  apply finish_ok
  rw [alu2, bind_act, readS_full _ ha]; dsimp only
  rw [bind_act, readS_full _ hb]; dsimp only
  rw [bind_act, awaitS_writable hd]; dsimp only
  exact write_retire _ _ hc

theorem alu1_calm {f : Word → Word} {o : RArgs} {s : State} (hc : s.core.Calm) (ha : s.core.Full o.a)
    (hd : s.core.Writable o.d) :
    finish (alu1 f o) s = .next (s.now (·.result o.d (f (s.core.s o.a.toNat)))) := by
  apply finish_ok
  rw [alu1, bind_act, readS_full _ ha]; dsimp only
  rw [bind_act, awaitS_writable hd]; dsimp only
  exact write_retire _ _ hc

theorem aluImm_calm {f : Word → Word → Word} {o : IArgs} {s : State} (hc : s.core.Calm) (ha : s.core.Full o.a)
    (hd : s.core.Writable o.d) :
    finish (aluImm f o) s = .next (s.now (·.result o.d (f (s.core.s o.a.toNat) (o.imm.signExtend 64)))) := by
  apply finish_ok
  rw [aluImm, bind_act, readS_full _ ha]; dsimp only
  rw [bind_act, awaitS_writable hd]; dsimp only
  exact write_retire _ _ hc

theorem shiftImm_calm {f : Word → Word → Word} {o : ShArgs} {s : State} (hc : s.core.Calm) (ha : s.core.Full o.a)
    (hd : s.core.Writable o.d) :
    finish (shiftImm f o) s = .next (s.now (·.result o.d (f (s.core.s o.a.toNat) (o.n.setWidth 64)))) := by
  apply finish_ok
  rw [shiftImm, bind_act, readS_full _ ha]; dsimp only
  rw [bind_act, awaitS_writable hd]; dsimp only
  exact write_retire _ _ hc

/-! ### Room in a deque (R339, R341) -/

/-- A list keeps what satisfies a condition when an element that does not leaves it. -/
theorem filter_eraseIdx {α : Type} (p : α → Bool) :
    ∀ (l : List α) (n : Nat) (x : α), l[n]? = some x → p x = false → (l.eraseIdx n).filter p = l.filter p
  | [], _, _, h, _ => by simp at h
  | y :: l, 0, x, h, hp => by
    obtain rfl : y = x := by simpa using h
    simp [hp]
  | y :: l, n + 1, x, h, hp => by
    have ih := filter_eraseIdx p l n x (by simpa using h) hp
    simp [List.filter_cons, ih]

/-- A packet that holds no place in core k's deque leaves the places held there as they are. -/
theorem placesHeld_erase {s : State} {k n : Nat} {x : Transit} (h : s.net[n]? = some x)
    (hx : ∀ src r y, x = .push src k r y → y.origin = 5) : placesHeld { s with net := s.net.eraseIdx n } k = placesHeld s k := by
  refine congrArg List.length (filter_eraseIdx _ s.net n x h ?_)
  split
  · next dst r y =>
    by_cases e : dst = k
    · subst e; simp [hx _ _ _ rfl]
    · simp [e]
  · rfl

/-- The room of a deque is a matter of its length and of the packets under way. -/
theorem dequeTakes_of {s t : State} {k : Nat} (hn : t.net = s.net) (hb : (t.coreAt k).dqBot = (s.coreAt k).dqBot)
    (ht : (t.coreAt k).dqTop = (s.coreAt k).dqTop) : dequeTakes t k = dequeTakes s k := by
  have e : placesHeld t k = placesHeld s k := by unfold placesHeld; rw [hn]
  unfold dequeTakes dqLen
  rw [e, hb, ht]

/-- A deque that takes a record is not full. -/
theorem not_full_of_takes {s : State} {k : Nat} (h : dequeTakes s k = true) : (s.coreAt k).dqBot - (s.coreAt k).dqTop < 256 := by
  have h : dqLen (s.coreAt k) + placesHeld s k < 256 := of_decide_eq_true h
  exact Nat.lt_of_le_of_lt (Nat.le_add_right ((s.coreAt k).dqBot - (s.coreAt k).dqTop) _) h

end Sys2Proof.Machine
end

