-- ==== Sys2Proof/Laws/Memory.lean ====
section
/-!
SUPPORT. The laws of memory: a read after a write, in the lists and at physical addresses; every operation keeps the canonical
form; and what an access of the own scratchpad reaches.
-/

namespace Sys2Proof.Machine

/-! ### Lists of bytes -/

theorem cellsFrom_mono {lo lo' : Nat} (h : lo ≤ lo') {m : List Host.Cell} (hm : cellsFrom lo' m = true) : cellsFrom lo m = true := by
  cases m with
  | nil => rfl
  | cons x r => obtain ⟨k, v⟩ := x; simp [cellsFrom] at hm ⊢; exact ⟨⟨by omega, hm.1.2⟩, hm.2⟩

/-- A read after a write to the same place gives the value written. -/
theorem cellGet_set (m : List Host.Cell) (a : Nat) (v : Byte) {lo : Nat} (h : cellsFrom lo m = true) : cellGet (cellSet m a v) a = v := by
  induction m generalizing lo with
  | nil => unfold cellSet; split <;> simp_all [cellGet]
  | cons x rest ih =>
    obtain ⟨k, w⟩ := x
    simp [cellsFrom] at h
    unfold cellSet
    split
    · split
      · next h1 h2 => subst h2; simp [cellGet, h1]; omega
      · simp [cellGet]
    · split
      · next h1 h2 =>
        subst h2
        split
        · next e =>
          subst e
          cases rest with
          | nil => rfl
          | cons y r => obtain ⟨j, u⟩ := y; simp [cellsFrom] at h; simp only [cellGet]; rw [if_neg (by omega), if_pos (by omega)]
        · simp [cellGet]
      · next h1 h2 => simp [cellGet, h2, show ¬ a < k from h1, ih h.2]

/-- A write leaves every other place alone. -/
theorem cellGet_set_other (m : List Host.Cell) {a b : Nat} (v : Byte) (hb : b ≠ a) {lo : Nat} (h : cellsFrom lo m = true) :
    cellGet (cellSet m a v) b = cellGet m b := by
  induction m generalizing lo with
  | nil =>
    unfold cellSet
    split
    · rfl
    · simp [cellGet, Ne.symm hb]
  | cons x rest ih =>
    obtain ⟨k, w⟩ := x
    simp [cellsFrom] at h
    unfold cellSet
    split
    · next h1 =>
      split
      · rfl
      · by_cases hk : k = b
        · simp [cellGet, hk, Ne.symm hb, show ¬ b < a by omega]
        · by_cases hlt : b < k
          · simp [cellGet, hk, hlt, Ne.symm hb]
          · simp [cellGet, hk, hlt, Ne.symm hb, show ¬ b < a by omega]
    · split
      · next h1 h2 =>
        subst h2
        split
        · by_cases hlt : b < k
          · rw [cellGet.eq_def ((k, w) :: rest)]
            simp only [Ne.symm hb, if_false, hlt, if_true]
            cases rest with
            | nil => rfl
            | cons y r =>
              obtain ⟨j, u⟩ := y
              simp [cellsFrom] at h
              simp only [cellGet]; rw [if_neg (by omega), if_pos (by omega)]
          · simp [cellGet, Ne.symm hb, hlt]
        · simp [cellGet, Ne.symm hb]
      · simp [cellGet, ih h.2]

theorem cellSet_from (m : List Host.Cell) (a : Nat) (v : Byte) {lo : Nat} (ha : lo ≤ a) (h : cellsFrom lo m = true) :
    cellsFrom lo (cellSet m a v) = true := by
  induction m generalizing lo with
  | nil => unfold cellSet; split <;> simp [cellsFrom, *]
  | cons x rest ih =>
    obtain ⟨k, w⟩ := x
    simp [cellsFrom] at h
    unfold cellSet
    split
    · next h1 =>
      split
      · simp [cellsFrom, h]
      · next h2 => simp [cellsFrom, ha, h2, h]; omega
    · split
      · next h1 h2 =>
        subst h2
        split
        · exact cellsFrom_mono (by omega) h.2
        · next e => simp [cellsFrom, ha, e, h]
      · next h1 h2 => simp [cellsFrom, h, ih (show k + 1 ≤ a by omega) h.2]

/-- A write keeps the canonical form. -/
theorem cellSet_wf {m : List Host.Cell} (a : Nat) (v : Byte) (h : Memory.wf m = true) : Memory.wf (cellSet m a v) = true :=
  cellSet_from m a v (Nat.zero_le a) h

/-- Equal reads are equal memories: the canonical form is unique. -/
theorem cells_ext {lo : Nat} {m n : List Host.Cell} (hm : cellsFrom lo m = true) (hn : cellsFrom lo n = true)
    (h : ∀ a, cellGet m a = cellGet n a) : m = n := by
  have below : ∀ {lo : Nat} {m : List Host.Cell}, cellsFrom lo m = true → ∀ a, a < lo → cellGet m a = unwritten := by
    intro lo m hm a ha
    cases m with
    | nil => rfl
    | cons x r => obtain ⟨k, v⟩ := x; simp [cellsFrom] at hm; simp only [cellGet]; rw [if_neg (by omega), if_pos (by omega)]
  induction m generalizing lo n with
  | nil =>
    cases n with
    | nil => rfl
    | cons y r =>
      obtain ⟨j, u⟩ := y
      have := h j
      simp [cellsFrom] at hn
      simp [cellGet] at this
      exact absurd this.symm hn.1.2
  | cons x rest ih =>
    obtain ⟨k, w⟩ := x
    cases n with
    | nil =>
      have := h k
      simp [cellsFrom] at hm
      simp [cellGet] at this
      exact absurd this hm.1.2
    | cons y r =>
      obtain ⟨j, u⟩ := y
      simp [cellsFrom] at hm hn
      have hkj : k = j := by
        rcases Nat.lt_trichotomy k j with hlt | heq | hgt
        · have := h k
          simp only [cellGet, if_true] at this
          rw [if_neg (by omega), if_pos hlt] at this
          exact absurd this hm.1.2
        · exact heq
        · have := h j
          simp only [cellGet, if_true] at this
          rw [if_neg (by omega), if_pos hgt] at this
          exact absurd this.symm hn.1.2
      subst hkj
      have hwu : w = u := by simpa [cellGet] using h k
      subst hwu
      refine congrArg _ (ih hm.2 hn.2 fun a => ?_)
      by_cases ha : a ≤ k
      · rw [below hm.2 a (by omega), below hn.2 a (by omega)]
      · have := h a
        simp only [cellGet] at this
        rwa [if_neg (by omega), if_neg (by omega), if_neg (by omega), if_neg (by omega)] at this

/-! ### Tags -/

theorem tagsFrom_mono {lo lo' : Nat} (h : lo ≤ lo') {m : List (Nat × Tag)} (hm : tagsFrom lo' m = true) : tagsFrom lo m = true := by
  cases m with
  | nil => rfl
  | cons x r => obtain ⟨k, v⟩ := x; simp [tagsFrom] at hm ⊢; exact ⟨⟨by omega, hm.1.2⟩, hm.2⟩

theorem tagGet_set (m : List (Nat × Tag)) (a : Nat) (v : Tag) {lo : Nat} (h : tagsFrom lo m = true) : tagGet (tagSet m a v) a = v := by
  induction m generalizing lo with
  | nil => unfold tagSet; split <;> simp_all [tagGet]
  | cons x rest ih =>
    obtain ⟨k, w⟩ := x
    simp [tagsFrom] at h
    unfold tagSet
    split
    · split
      · next h1 h2 => subst h2; simp [tagGet, h1]; omega
      · simp [tagGet]
    · split
      · next h1 h2 =>
        subst h2
        split
        · next e =>
          subst e
          cases rest with
          | nil => rfl
          | cons y r => obtain ⟨j, u⟩ := y; simp [tagsFrom] at h; simp only [tagGet]; rw [if_neg (by omega), if_pos (by omega)]
        · simp [tagGet]
      · next h1 h2 => simp [tagGet, h2, show ¬ a < k from h1, ih h.2]

theorem tagGet_set_other (m : List (Nat × Tag)) {a b : Nat} (v : Tag) (hb : b ≠ a) {lo : Nat} (h : tagsFrom lo m = true) :
    tagGet (tagSet m a v) b = tagGet m b := by
  induction m generalizing lo with
  | nil =>
    unfold tagSet
    split
    · rfl
    · simp [tagGet, Ne.symm hb]
  | cons x rest ih =>
    obtain ⟨k, w⟩ := x
    simp [tagsFrom] at h
    unfold tagSet
    split
    · next h1 =>
      split
      · rfl
      · by_cases hk : k = b
        · simp [tagGet, hk, Ne.symm hb, show ¬ b < a by omega]
        · by_cases hlt : b < k
          · simp [tagGet, hk, hlt, Ne.symm hb]
          · simp [tagGet, hk, hlt, Ne.symm hb, show ¬ b < a by omega]
    · split
      · next h1 h2 =>
        subst h2
        split
        · by_cases hlt : b < k
          · rw [tagGet.eq_def ((k, w) :: rest)]
            simp only [Ne.symm hb, if_false, hlt, if_true]
            cases rest with
            | nil => rfl
            | cons y r =>
              obtain ⟨j, u⟩ := y
              simp [tagsFrom] at h
              simp only [tagGet]; rw [if_neg (by omega), if_pos (by omega)]
          · simp [tagGet, Ne.symm hb, hlt]
        · simp [tagGet, Ne.symm hb]
      · simp [tagGet, ih h.2]

/-- A tag replaced keeps the canonical form. -/
theorem tagSet_from (m : List (Nat × Tag)) (a : Nat) (v : Tag) {lo : Nat} (ha : lo ≤ a) (h : tagsFrom lo m = true) :
    tagsFrom lo (tagSet m a v) = true := by
  induction m generalizing lo with
  | nil =>
    unfold tagSet
    split
    · rfl
    · next e => simpa [tagsFrom, ha] using e
  | cons x rest ih =>
    obtain ⟨k, w⟩ := x
    simp [tagsFrom] at h
    unfold tagSet
    split
    · next h1 =>
      split
      · simp [tagsFrom, h]
      · next h2 =>
        simp only [tagsFrom, Bool.and_eq_true, decide_eq_true_eq]
        exact ⟨⟨ha, h2⟩, ⟨by omega, h.1.2⟩, h.2⟩
    · split
      · next h1 h2 =>
        subst h2
        split
        · exact tagsFrom_mono (by omega) h.2
        · next e =>
          simp only [tagsFrom, Bool.and_eq_true, decide_eq_true_eq]
          exact ⟨⟨ha, e⟩, h.2⟩
      · next h1 h2 => simp [tagsFrom, h, ih (show k + 1 ≤ a by omega) h.2]

/-! ### Physical addresses -/

@[simp] theorem reset_canonical : State.reset.Canonical := ⟨rfl, rfl, rfl⟩

/-- A change that keeps memory, host memory and tags keeps their form. -/
theorem Canonical.of_eq {s t : State} (h : s.Canonical) (hm : t.mem = s.mem) (hh : t.host = s.host) (ht : t.tags = s.tags) :
    t.Canonical := by unfold State.Canonical; rw [hm, hh, ht]; exact h

theorem physSet_canonical {s : State} (p : Nat) (v : Byte) (h : s.Canonical) : (physSet s p v).Canonical := by
  unfold physSet
  split
  · exact ⟨h.1, cellSet_wf _ _ h.2.1, h.2.2⟩
  · exact ⟨cellSet_wf _ _ h.1, h.2.1, h.2.2⟩

theorem physPut_canonical {s : State} (p : Nat) (bs : List Byte) (h : s.Canonical) : (physPut s p bs).Canonical := by
  induction bs generalizing s p with
  | nil => exact h
  | cons b bs ih => exact ih (p + 1) (physSet_canonical p b h)

theorem physPutNat_canonical {s : State} (p n v : Nat) (h : s.Canonical) : (physPutNat s p n v).Canonical :=
  physPut_canonical p _ h

theorem physSetTag_canonical {s : State} (p : Nat) (t : Tag) (m : BitVec 5) (h : s.Canonical) : (physSetTag s p t m).Canonical := by
  unfold physSetTag
  split
  · exact h
  · exact ⟨h.1, h.2.1, tagSet_from _ _ _ (Nat.zero_le _) h.2.2⟩

theorem foldSet_canonical (ks : List Nat) (m : BitVec 64) (blk : Nat) (data : BitVec 512) {s : State} (h : s.Canonical) :
    (ks.foldl (fun s k => if m.getLsbD k then physSet s (blk + k) (byteOf data k) else s) s).Canonical := by
  induction ks generalizing s with
  | nil => exact h
  | cons k ks ih =>
    simp only [List.foldl_cons]
    split
    · exact ih (physSet_canonical _ _ h)
    · exact ih h

/-- Only a header of the expert table, in DRAM, holds less than what is written to it. -/
theorem asHeld_of {s : State} {blk : Nat} (h : isHeader s blk = false) (d : BitVec 512) : asHeld s blk d = d := by simp [asHeld, h]
theorem asHeldAt_of {s : State} {p : Nat} (h : isHeader s (blockOf p) = false) (v : Nat) : asHeldAt s p v = v := by simp [asHeldAt, h]
theorem isHeader_kind {s : State} {blk : Nat} (h : kindOf blk ≠ 0) : isHeader s blk = false := by simp [isHeader, h]

/-- A merge at a block's home keeps the canonical form. -/
theorem homeMerge_canonical {s : State} (blk : Nat) (data : BitVec 512) (m : BitVec 64) (t : Tag) (tm : BitVec 5) (h : s.Canonical) :
    (homeMerge s blk data m t tm).Canonical := by
  unfold homeMerge
  split
  · split
    · exact physSetTag_canonical _ _ _ (physPut_canonical _ _ (Canonical.of_eq h rfl rfl rfl))
    · exact h
  · exact physSetTag_canonical _ _ _ (foldSet_canonical _ _ _ _ h)

/-- The order of moves and the core whose turn it is are no part of memory. -/
theorem canonical_with (t : State) (a : List Move) (b : Bool) (c : Core) (h : t.Canonical) :
    State.Canonical { t with agenda := a, held := b, core := c } := h

/-- Placing code keeps the canonical form. -/
theorem placeCode_canonical (code : List Byte) {s : State} (h : s.Canonical) : (placeCode code s).Canonical := by
  unfold placeCode
  extract_lets base s1 s2 s3
  have h1 : s1.Canonical := physPut_canonical _ _ h
  have h2 : s2.Canonical := physPutNat_canonical _ _ _ h1
  have h3 : s3.Canonical := physPutNat_canonical _ _ _ h2
  exact canonical_with s3 _ _ _ h3

/-! A write of the package's own memory: one byte, then a run of bytes. -/

section
variable {s : State} {p : Nat} {v : Byte}

@[simp] theorem physSet_tags : (physSet s p v).tags = s.tags := by unfold physSet; split <;> rfl
@[simp] theorem physSet_core : (physSet s p v).core = s.core := by unfold physSet; split <;> rfl
@[simp] theorem physSet_cid : (physSet s p v).cid = s.cid := by unfold physSet; split <;> rfl
@[simp] theorem physSet_others : (physSet s p v).others = s.others := by unfold physSet; split <;> rfl
@[simp] theorem physSet_pkg : (physSet s p v).pkg = s.pkg := by unfold physSet; split <;> rfl
@[simp] theorem physSet_ecc : (physSet s p v).ecc = s.ecc := by unfold physSet; split <;> rfl
@[simp] theorem physSet_clusters : (physSet s p v).clusters = s.clusters := by unfold physSet; split <;> rfl
@[simp] theorem physSet_net : (physSet s p v).net = s.net := by unfold physSet; split <;> rfl

theorem physSet_mem (h : kindOf p ≠ 3) : (physSet s p v).mem = cellSet s.mem p v := by simp [physSet, h]
theorem physSet_host (h : kindOf p ≠ 3) : (physSet s p v).host = s.host := by simp [physSet, h]

theorem physGet_set (hk : kindOf p ≠ 3) (h : s.Canonical) : physGet (physSet s p v) p = v := by
  simp [physGet, hk, physSet_mem hk, cellGet_set _ _ _ h.1]

theorem physGet_set_other {q : Nat} (hk : kindOf p ≠ 3) (hq : q ≠ p) (h : s.Canonical) :
    physGet (physSet s p v) q = physGet s q := by
  simp [physGet, hostAddr, physSet_mem hk, physSet_host hk, cellGet_set_other _ _ hq h.1]
end

section
variable (s : State) (p : Nat) (bs : List Byte)

@[simp] theorem physPut_tags : (physPut s p bs).tags = s.tags := by induction bs generalizing s p <;> simp_all [physPut]
@[simp] theorem physPut_core : (physPut s p bs).core = s.core := by induction bs generalizing s p <;> simp_all [physPut]
@[simp] theorem physPut_cid : (physPut s p bs).cid = s.cid := by induction bs generalizing s p <;> simp_all [physPut]
@[simp] theorem physPut_others : (physPut s p bs).others = s.others := by induction bs generalizing s p <;> simp_all [physPut]
@[simp] theorem physPut_pkg : (physPut s p bs).pkg = s.pkg := by induction bs generalizing s p <;> simp_all [physPut]
@[simp] theorem physPut_ecc : (physPut s p bs).ecc = s.ecc := by induction bs generalizing s p <;> simp_all [physPut]
@[simp] theorem physPut_clusters : (physPut s p bs).clusters = s.clusters := by induction bs generalizing s p <;> simp_all [physPut]
@[simp] theorem physPut_net : (physPut s p bs).net = s.net := by induction bs generalizing s p <;> simp_all [physPut]
end

/-- Bytes written from an address up: each is read back, and every other byte is as before. -/
theorem cellGet_put (bs : List Byte) {s : State} {p : Nat} (hk : ∀ i < bs.length, kindOf (p + i) ≠ 3) (h : s.Canonical) :
    (physPut s p bs).host = s.host ∧ (∀ i < bs.length, cellGet (physPut s p bs).mem (p + i) = bs.getD i 0) ∧
    ∀ a, (a < p ∨ p + bs.length ≤ a) → cellGet (physPut s p bs).mem a = cellGet s.mem a := by
  induction bs generalizing s p with
  | nil => exact ⟨rfl, fun i hi => absurd hi (Nat.not_lt_zero i), fun a _ => rfl⟩
  | cons b bs ih =>
    have h0 : kindOf p ≠ 3 := hk 0 (by simp)
    have hk' : ∀ i < bs.length, kindOf (p + 1 + i) ≠ 3 := fun i hi => by
      rw [show p + 1 + i = p + (i + 1) by omega]; exact hk (i + 1) (by simpa using hi)
    obtain ⟨a1, a2, a3⟩ := ih (s := physSet s p b) (p := p + 1) hk' (physSet_canonical p b h)
    refine ⟨a1.trans (physSet_host h0), fun i hi => ?_, fun a ha => ?_⟩
    · cases i with
      | zero =>
        rw [Nat.add_zero, physPut, a3 p (by omega), physSet_mem h0, cellGet_set _ _ _ h.1]; rfl
      | succ i =>
        rw [physPut, show p + (i + 1) = p + 1 + i by omega, a2 i (by simpa using hi)]; rfl
    · rw [physPut, a3 a (by simp at ha; omega), physSet_mem h0, cellGet_set_other _ _ (by simp at ha; omega) h.1]

@[simp] theorem leBytes_length (n v : Nat) : (leBytes n v).length = n := by induction n generalizing v <;> simp_all [leBytes]

/-- A value written little-endian is read back, in its width. -/
theorem leValue_bytes (n v : Nat) : leValue (leBytes n v) = v % 2 ^ (8 * n) := by
  induction n generalizing v with
  | zero => simp [leBytes, leValue, Nat.mod_one]
  | succ n ih =>
    simp only [leBytes, leValue, ih, BitVec.toNat_ofNat]
    rw [show 8 * (n + 1) = 8 + 8 * n by omega, Nat.pow_add, Nat.mod_mul]

/-! ### The own scratchpad (R61, R141) -/

section
variable {s : State} {ea : Word} {w : Nat}

theorem own_kind (h : s.OwnBytes ea w) {i : Nat} (hi : i < w) : kindOf (s.ownPlace ea + i) = 1 := by
  obtain ⟨h1, h2, h3, h4, h5⟩ := h
  simp only [State.ownPlace, scratch, physAddr, kindOf]
  generalize ((BitVec.extractLsb' 0 60 ea).toNat) = off at *
  omega

theorem own_reach (h : s.OwnBytes ea w) (hw : 0 < w) : reachable s (s.ownPlace ea) = true := by
  have k := own_kind h hw
  obtain ⟨h1, h2, h3, h4, h5⟩ := h
  have hp := s.pkg.pkgid.isLt
  have h6 : packageOf (s.ownPlace ea) = s.pkg.pkgid.toNat := by
    simp only [packageOf, State.ownPlace, scratch, physAddr]
    generalize ((BitVec.extractLsb' 0 60 ea).toNat) = off at *
    generalize s.pkg.pkgid.toNat = g at *
    omega
  rw [Nat.add_zero] at k
  simp [reachable, k, h6]

/-- An access of the own scratchpad that is no write of the system area reaches its place. -/
theorem own_local (h : s.OwnBytes ea w) (hw : 0 < w) (m : Mode) (hm : m.writes = false ∨ Unreserved ea w) :
    ea.getLsbD 63 = true ∧ localTarget s ea w m = .ok (.sram (s.ownPlace ea) true ea) := by
  obtain ⟨h1, h2, h3, h4, h5⟩ := h
  have e63 : ea.getLsbD 63 = true := by
    have := congrArg (fun b : BitVec 4 => b.getLsbD 3) h3
    simpa [BitVec.getLsbD_extractLsb'] using this
  have sp : spaceOf ea = 1 := by
    have := congrArg BitVec.toNat h3
    simp only [BitVec.extractLsb'_toNat, spaceOf] at *
    have h9 : (9 : BitVec 4).toNat = 9 := rfl
    rw [h9] at this
    rw [Nat.shiftRight_eq_div_pow] at *
    omega
  refine ⟨e63, ?_⟩
  have hr : restOf ea = (BitVec.extractLsb' 0 60 ea).toNat := rfl
  simp only [localTarget, sp]
  rw [if_neg (by rw [hr]; omega)]
  have : ¬ (m.writes && inSystemArea (restOf ea)) = true := by
    rw [hr]
    rcases hm with hm | hu
    · simp [hm]
    · simp only [inSystemArea, Unreserved, Bool.and_eq_true, decide_eq_true_eq] at *
      intro hh
      omega
  rw [if_neg this]
  rfl
end

end Sys2Proof.Machine
end

