-- ==== Sys2Proof/Laws/Fetch.lean ====
section
/-!
SUPPORT. What translating an address and fetching an instruction can change: the caches and what an evicted L2 line writes home.
-/

namespace Sys2Proof.Machine

/-- No core holds a byte that its home does not. -/
def State.AllClean (s : State) : Prop := ∀ k, ∀ l ∈ (s.coreAt k).lines, l.isDirty = false

/-- The core without its lines. -/
def Core.bare (c : Core) : Core := { c with lines := [], ilines := [] }

/-- Only caches differ, and memory by what a dirty line has written home: under `P`, where no line is dirty, memory is as before. -/
structure CachesOnly (P : Prop) (s t : State) : Prop where
  core : t.core.bare = s.core.bare
  cid : t.cid = s.cid
  cyc : t.pkg.cyc = s.pkg.cyc
  agenda : t.agenda = s.agenda
  held : t.held = s.held
  nfree : t.nfree = s.nfree
  net : t.net = s.net
  clean : P → s.AllClean → t.AllClean ∧ t.mem = s.mem ∧ t.tags = s.tags ∧ t.host = s.host

namespace CachesOnly

variable {P : Prop}

/-- Where some line is dirty nothing is asked of memory. -/
theorem of_dirty {s t : State} (h : CachesOnly False s t) (d : ¬ s.AllClean) : CachesOnly P s t :=
  ⟨h.core, h.cid, h.cyc, h.agenda, h.held, h.nfree, h.net, fun _ c => absurd c d⟩

/-- Where no line is dirty under `P` cannot be, nothing is asked of memory. -/
theorem weaken {s t : State} {P Q : Prop} (h : CachesOnly P s t) (d : Q → s.AllClean → False) : CachesOnly Q s t :=
  ⟨h.core, h.cid, h.cyc, h.agenda, h.held, h.nfree, h.net, fun q c => (d q c).elim⟩

theorem refl (s : State) : CachesOnly P s s := ⟨rfl, rfl, rfl, rfl, rfl, rfl, rfl, fun _ h => ⟨h, rfl, rfl, rfl⟩⟩

theorem trans {s t u : State} (h : CachesOnly P s t) (k : CachesOnly P t u) : CachesOnly P s u where
  core := k.core.trans h.core
  cid := k.cid.trans h.cid
  cyc := k.cyc.trans h.cyc
  agenda := k.agenda.trans h.agenda
  held := k.held.trans h.held
  nfree := k.nfree.trans h.nfree
  net := k.net.trans h.net
  clean := fun q c => by
    obtain ⟨c1, m1, t1, h1⟩ := h.clean q c
    obtain ⟨c2, m2, t2, h2⟩ := k.clean q c1
    exact ⟨c2, m2.trans m1, t2.trans t1, h2.trans h1⟩

theorem modCluster (s : State) (g : Nat) (f : Cluster → Cluster) : CachesOnly P s (s.modCluster g f) :=
  ⟨rfl, rfl, rfl, rfl, rfl, rfl, rfl, fun _ h => ⟨h, rfl, rfl, rfl⟩⟩

theorem modPkg (s : State) {f : Package → Package} (h : (f s.pkg).cyc = s.pkg.cyc) : CachesOnly P s (s.modPkg f) :=
  ⟨rfl, rfl, h, rfl, rfl, rfl, rfl, fun _ c => ⟨c, rfl, rfl, rfl⟩⟩

/-- A core's lines changed for some of them, or cleaned ones. -/
theorem modCore (s : State) (k : Nat) (f : Core → Core) (hb : ∀ c, (f c).bare = c.bare)
    (hl : (∀ l ∈ (s.coreAt k).lines, l.isDirty = false) → ∀ l ∈ (f (s.coreAt k)).lines, l.isDirty = false) :
    CachesOnly P s (s.modCore k f) where
  core := by
    unfold State.modCore State.putCore
    split
    · next h => subst h; simp [hb]
    · rfl
  cid := modCore_cid s f k
  cyc := by simp
  agenda := by simp
  held := by simp
  nfree := by simp
  net := by simp
  clean := fun _ c => by
    refine ⟨fun j l hj => ?_, by simp, by simp, by simp⟩
    by_cases e : j = k
    · subst e; rw [coreAt_modCore] at hj; exact hl (c j) l hj
    · rw [coreAt_modCore_other s k f e] at hj; exact c j l hj

/-- The core whose turn it is changed in its instruction lines alone. -/
theorem ilines (s : State) (ls : List ILine) : CachesOnly P s { s with core := { s.core with ilines := ls } } := by
  have m := modCore (P := P) s s.cid (fun c => { c with ilines := ls }) (fun _ => rfl) fun h => h
  rwa [modCore_self] at m

theorem foldl {α : Type} (g : State → α → State) (hg : ∀ s a, CachesOnly P s (g s a)) (l : List α) (s : State) :
    CachesOnly P s (l.foldl g s) := by
  induction l generalizing s with
  | nil => exact refl s
  | cons a l ih => exact (hg s a).trans (ih (g s a))

end CachesOnly

/-- A line written home changes memory alone; a line that is not dirty changes nothing. -/
theorem homeMerge_keeps (s : State) (blk : Nat) (d : BitVec 512) (m : BitVec 64) (t : Tag) (tm : BitVec 5) :
    (homeMerge s blk d m t tm).core = s.core ∧ (homeMerge s blk d m t tm).cid = s.cid ∧
    (homeMerge s blk d m t tm).others = s.others ∧ (homeMerge s blk d m t tm).pkg = s.pkg ∧
    (homeMerge s blk d m t tm).agenda = s.agenda ∧ (homeMerge s blk d m t tm).held = s.held ∧
    (homeMerge s blk d m t tm).nfree = s.nfree ∧ (homeMerge s blk d m t tm).net = s.net := by
  have set1 : ∀ (s : State) p v, (physSet s p v).core = s.core ∧ (physSet s p v).cid = s.cid ∧ (physSet s p v).others = s.others ∧
      (physSet s p v).pkg = s.pkg ∧ (physSet s p v).agenda = s.agenda ∧ (physSet s p v).held = s.held ∧
      (physSet s p v).nfree = s.nfree ∧ (physSet s p v).net = s.net := fun s p v => by
    unfold physSet; split <;> exact ⟨rfl, rfl, rfl, rfl, rfl, rfl, rfl, rfl⟩
  have put1 : ∀ (bs : List Byte) (s : State) p, (physPut s p bs).core = s.core ∧ (physPut s p bs).cid = s.cid ∧
      (physPut s p bs).others = s.others ∧ (physPut s p bs).pkg = s.pkg ∧ (physPut s p bs).agenda = s.agenda ∧
      (physPut s p bs).held = s.held ∧ (physPut s p bs).nfree = s.nfree ∧ (physPut s p bs).net = s.net := fun bs => by
    induction bs with
    | nil => intro s p; exact ⟨rfl, rfl, rfl, rfl, rfl, rfl, rfl, rfl⟩
    | cons b bs ih =>
      intro s p
      obtain ⟨a1, a2, a3, a4, a5, a6, a7, a8⟩ := ih (physSet s p b) (p + 1)
      obtain ⟨b1, b2, b3, b4, b5, b6, b7, b8⟩ := set1 s p b
      exact ⟨a1.trans b1, a2.trans b2, a3.trans b3, a4.trans b4, a5.trans b5, a6.trans b6, a7.trans b7, a8.trans b8⟩
  have tag1 : ∀ (s : State) p t m, (physSetTag s p t m).core = s.core ∧ (physSetTag s p t m).cid = s.cid ∧
      (physSetTag s p t m).others = s.others ∧ (physSetTag s p t m).pkg = s.pkg ∧ (physSetTag s p t m).agenda = s.agenda ∧
      (physSetTag s p t m).held = s.held ∧ (physSetTag s p t m).nfree = s.nfree ∧ (physSetTag s p t m).net = s.net := fun s p t m => by
    unfold physSetTag; split <;> exact ⟨rfl, rfl, rfl, rfl, rfl, rfl, rfl, rfl⟩
  have fold1 : ∀ (d : BitVec 512) (ks : List Nat) (s : State),
      let r := ks.foldl (fun s k => if m.getLsbD k then physSet s (blk + k) (byteOf d k) else s) s
      r.core = s.core ∧ r.cid = s.cid ∧ r.others = s.others ∧ r.pkg = s.pkg ∧ r.agenda = s.agenda ∧ r.held = s.held ∧
      r.nfree = s.nfree ∧ r.net = s.net := fun d ks => by
    induction ks with
    | nil => intro s; exact ⟨rfl, rfl, rfl, rfl, rfl, rfl, rfl, rfl⟩
    | cons k ks ih =>
      intro s
      simp only [List.foldl_cons]
      obtain ⟨a1, a2, a3, a4, a5, a6, a7, a8⟩ := ih (if m.getLsbD k then physSet s (blk + k) (byteOf d k) else s)
      have h1 := set1 s (blk + k) (byteOf d k)
      by_cases e : m.getLsbD k = true
      · simp only [e, if_true] at a1 a2 a3 a4 a5 a6 a7 a8 ⊢
        exact ⟨a1.trans h1.1, a2.trans h1.2.1, a3.trans h1.2.2.1, a4.trans h1.2.2.2.1, a5.trans h1.2.2.2.2.1,
          a6.trans h1.2.2.2.2.2.1, a7.trans h1.2.2.2.2.2.2.1, a8.trans h1.2.2.2.2.2.2.2⟩
      · simp only [e] at a1 a2 a3 a4 a5 a6 a7 a8 ⊢
        exact ⟨a1, a2, a3, a4, a5, a6, a7, a8⟩
  have comp : ∀ {a b c : State},
      (b.core = a.core ∧ b.cid = a.cid ∧ b.others = a.others ∧ b.pkg = a.pkg ∧ b.agenda = a.agenda ∧ b.held = a.held ∧
        b.nfree = a.nfree ∧ b.net = a.net) →
      (c.core = b.core ∧ c.cid = b.cid ∧ c.others = b.others ∧ c.pkg = b.pkg ∧ c.agenda = b.agenda ∧ c.held = b.held ∧
        c.nfree = b.nfree ∧ c.net = b.net) →
      (c.core = a.core ∧ c.cid = a.cid ∧ c.others = a.others ∧ c.pkg = a.pkg ∧ c.agenda = a.agenda ∧ c.held = a.held ∧
        c.nfree = a.nfree ∧ c.net = a.net) := fun h k =>
    ⟨k.1.trans h.1, k.2.1.trans h.2.1, k.2.2.1.trans h.2.2.1, k.2.2.2.1.trans h.2.2.2.1, k.2.2.2.2.1.trans h.2.2.2.2.1,
      k.2.2.2.2.2.1.trans h.2.2.2.2.2.1, k.2.2.2.2.2.2.1.trans h.2.2.2.2.2.2.1, k.2.2.2.2.2.2.2.trans h.2.2.2.2.2.2.2⟩
  unfold homeMerge
  split
  · split
    · exact comp (put1 _ { s with ecc := s.ecc.filter (· ≠ blk) } blk) (tag1 _ blk t tm)
    · exact ⟨rfl, rfl, rfl, rfl, rfl, rfl, rfl, rfl⟩
  · exact comp (fold1 _ (List.range 64) s) (tag1 _ blk t tm)

section
variable {P : Prop}

/-- A lost access changes counts and what waits for the host queue. -/
theorem countDrop_caches (s : State) (p : Nat) : CachesOnly P s (countDrop s p) := by
  unfold countDrop
  split
  · exact .modPkg s rfl
  · unfold dropTo
    split
    · exact .refl s
    · dsimp only
      split
      · exact (CachesOnly.modPkg s rfl).trans (.modPkg _ rfl)
      · exact .modPkg s rfl

theorem writeHome_caches (k : Nat) (l : Line) (s : State) (h : P → s.AllClean → l.isDirty = false) : CachesOnly P s (writeHome k l s) := by
  unfold writeHome
  split
  · exact .refl s
  · next hd =>
    have absurd' : P → s.AllClean → False := fun q c => hd (by simp [h q c])
    split
    · exact (countDrop_caches (P := False) s l.phys).weaken absurd'
    · obtain ⟨a1, a2, a3, a4, a5, a6, a7, a8⟩ := homeMerge_keeps s l.phys l.data l.dirty l.tag l.tagDirty
      have m : CachesOnly P s (homeMerge s l.phys l.data l.dirty l.tag l.tagDirty) :=
        ⟨congrArg Core.bare a1, a2, congrArg Package.cyc a4, a5, a6, a7, a8, fun q c => (absurd' q c).elim⟩
      refine m.trans ?_
      unfold l2Merge
      split
      · exact .modCluster _ _ _
      · exact .refl _

theorem evictLine_caches (k : Nat) (l : Line) (s : State) (h : P → s.AllClean → l.isDirty = false) : CachesOnly P s (evictLine k l s) := by
  unfold evictLine
  split
  · exact .refl s
  · refine (writeHome_caches k l s h).trans (.modCore _ k _ (fun c => rfl) fun hc x hx => ?_)
    exact hc x ((List.mem_filter.mp hx).1)

theorem purgeLines_caches (k : Nat) (p : Line → Bool) (s : State) : CachesOnly P s (purgeLines k p s) := by
  have go : ∀ (P : Prop) (ls : List Line) (t : State), (P → t.AllClean → ∀ l ∈ ls, l.isDirty = false) →
      CachesOnly P t (ls.foldl (fun s l => evictLine k l s) t) := by
    intro P ls
    induction ls generalizing P with
    | nil => intro t _; exact .refl t
    | cons l ls ih =>
      intro t h
      by_cases c : t.AllClean
      · exact (evictLine_caches k l t fun q c => h q c l (by simp)).trans (ih P _ fun q _ x hx => h q c x (by simp [hx]))
      · exact ((evictLine_caches (P := False) k l t fun q => q.elim).trans (ih False _ fun q => q.elim)).of_dirty c
  exact go P _ s fun _ c l hl => c k l (List.mem_filter.mp hl).1

theorem l2Evict_caches (g ln : Nat) (s : State) : CachesOnly P s (l2Evict g ln s) := by
  unfold l2Evict
  refine (CachesOnly.foldl _ (fun s k => purgeLines_caches k _ s) _ s).trans ((CachesOnly.modCluster _ _ _).trans (.foldl _ (fun s k => ?_) _ _))
  split
  · exact .modCore _ k _ (fun c => rfl) fun h => h
  · exact .refl s

theorem l2Room_caches (g phys : Nat) (s : State) : CachesOnly P s (l2Room g phys s) := by
  unfold l2Room
  split
  · exact l2Evict_caches _ _ s
  · exact .refl s

theorem l2Read_caches (g phys : Nat) (bound : Bool) (epoch : Word) (stamp : Option Word) (s : State) :
    CachesOnly P s (l2Read g phys bound epoch stamp s).2 := by
  unfold l2Read
  split
  · exact .refl s
  · dsimp only
    split
    · exact .refl s
    · dsimp only
      exact (l2Room_caches g (blockOf phys) s).trans (.modCluster _ _ _)

/-- A translation that answers changes the cluster's translation cache and nothing else. -/
theorem translate_ok {s t : State} {x : Xlat} {cluster id off n : Nat} {need : Need}
    (h : translate s cluster id off n need = .ok (x, t)) : t = s ∨ ∃ f : List Translation → List Translation, t = s.modCluster cluster fun c => { c with tc := f c.tc } := by
  unfold translate at h
  dsimp only at h
  split at h
  · cases h; exact .inl rfl
  · split at h
    · cases h
    · cases h; exact .inr ⟨fun l => tcFill (tcDrop l id off) _ s.nfree, rfl⟩

theorem translate_caches {s t : State} {x : Xlat} {cluster id off n : Nat} {need : Need}
    (h : translate s cluster id off n need = .ok (x, t)) : CachesOnly P s t := by
  rcases translate_ok h with rfl | ⟨f, rfl⟩
  · exact .refl _
  · exact .modCluster _ _ _

/-- A readable block changes nothing. -/
theorem readable_same {p : Nat} {a : Word} {s t : State} {x : Unit} (h : readable p a s = .ok (x, t)) : t = s := by
  unfold readable at h
  split at h
  · cases h
  · split at h
    · cases h
    · cases h; rfl

/-- A mapped answer is the map of an answer. -/
theorem map_ok {α β ε : Type} {f : α → β} {m : Except ε α} {y : β} (h : m.map f = .ok y) : ∃ x, m = .ok x ∧ y = f x := by
  cases m with
  | error e => cases h
  | ok x => cases h; exact ⟨x, rfl, rfl⟩

theorem missRead_caches {a : Word} {x : Xlat} {slot : Option Nat} {stamp : Option Word} {s t : State} {b : Block}
    (h : missRead a x slot stamp s = .ok (b, t)) : CachesOnly P s t := by
  unfold missRead at h
  dsimp only at h
  split at h
  · have r := l2Read_caches (P := P) (clusterOf s.cid) x.phys (decide (x.cls = 1)) (slotEpoch s.core slot) stamp s
    rw [Except.ok.inj h] at r
    exact r
  · split at h
    · cases h
    · next u hu =>
      obtain rfl := readable_same hu
      split at h
      · cases h
      · have r := l2Read_caches (P := P) (clusterOf u.cid) x.phys (decide (x.cls = 1)) (slotEpoch u.core slot) stamp u
        rw [Except.ok.inj h] at r
        exact r

theorem fetchMiss_caches {a : Word} {s t : State} {v : BitVec 16} (h : fetchMiss a s = .ok (v, t)) : CachesOnly P s t := by
  unfold fetchMiss at h
  split at h
  · next e _ => cases e <;> cases h
  · next x u hx =>
    have tr : CachesOnly P s u := translate_caches hx
    split at h
    · obtain ⟨r, hr, h⟩ := map_ok h
      cases h
      exact (readable_same hr) ▸ tr
    · split at h
      · cases h
      · next b v hb =>
        have r := tr.trans (missRead_caches hb)
        cases h
        split
        · exact r.trans (.ilines _ _)
        · exact r

theorem fetchHalf_caches {a : Word} {s t : State} {v : BitVec 16} (h : fetchHalf a s = .ok (v, t)) : CachesOnly P s t := by
  unfold fetchHalf asFetch at h
  split at h
  · cases h
  · cases h
  · next r hr =>
    cases h
    split at hr
    · cases hr
    · dsimp only at hr
      split at hr
      · split at hr
        · cases hr; exact .refl _
        · exact fetchMiss_caches hr
      · exact fetchMiss_caches hr

/-- FETCHING changes caches alone, and memory only by what an evicted L2 line writes home (R302). -/
theorem fetchInsn_caches {a : Word} {s t : State} {w : BitVec 32} (h : fetchInsn a s = .ok (w, t)) : CachesOnly P s t := by
  unfold fetchInsn at h
  rw [bind_act] at h
  split at h
  · next lo u hu =>
    have h1 : CachesOnly P s u := fetchHalf_caches hu
    split at h
    · rw [bind_act] at h
      split at h
      · next hi v hv => cases h; exact h1.trans (fetchHalf_caches hv)
      · cases h
    · cases h; exact h1
  · cases h
end

end Sys2Proof.Machine
end

