-- ==== Sys2Proof/Laws/PerInstr.lean ====
section
/-!
SUPPORT. R80 for every instruction as syntax: bit 0 of the first halfword of its code gives its length, and the steps of other
agents have no code.
-/

namespace Sys2Proof.Laws.LengthBit

/-- Bit 0 of a word is 1, bit 0 of a 16-bit form is 0, and what has no code is a step of another agent. -/
def Statement (i : Instr) : Prop :=
  match code i with
  | some (.word w) => w.getLsbD 0 = true
  | some (.half h) => h.getLsbD 0 = false
  | none => i.isEvent = true

/-! ### The operand forms -/

theorem RArgs_low (major : BitVec 6) (fn : BitVec 8) (o : RArgs) : (RArgs.word major fn o).getLsbD 0 = true := by
  unfold RArgs.word; rw [BitVec.getLsbD_append]; rfl
theorem AmoArgs_low (major : BitVec 6) (op : BitVec 4) (o : AmoArgs) : (AmoArgs.word major op o).getLsbD 0 = true := by
  unfold AmoArgs.word; rw [BitVec.getLsbD_append]; rfl
theorem AmoPArgs_low (major : BitVec 6) (op : BitVec 4) (o : AmoPArgs) : (AmoPArgs.word major op o).getLsbD 0 = true := by
  unfold AmoPArgs.word; rw [BitVec.getLsbD_append]; rfl
theorem CpyArgs_low (major : BitVec 6) (fn : BitVec 3) (o : CpyArgs) : (CpyArgs.word major fn o).getLsbD 0 = true := by
  unfold CpyArgs.word; rw [BitVec.getLsbD_append]; rfl
theorem QfArgs_low (major : BitVec 6) (fn : BitVec 3) (o : QfArgs) : (QfArgs.word major fn o).getLsbD 0 = true := by
  unfold QfArgs.word; rw [BitVec.getLsbD_append]; rfl
theorem IArgs_low (major : BitVec 6) (o : IArgs) : (IArgs.word major o).getLsbD 0 = true := by
  unfold IArgs.word; rw [BitVec.getLsbD_append]; rfl
theorem ShArgs_low (major : BitVec 6) (fn : BitVec 2) (o : ShArgs) : (ShArgs.word major fn o).getLsbD 0 = true := by
  unfold ShArgs.word; rw [BitVec.getLsbD_append]; rfl
theorem UArgs_low (major : BitVec 6) (o : UArgs) : (UArgs.word major o).getLsbD 0 = true := by
  unfold UArgs.word; rw [BitVec.getLsbD_append]; rfl
theorem BArgs_low (major : BitVec 6) (fn : BitVec 3) (o : BArgs) : (BArgs.word major fn o).getLsbD 0 = true := by
  unfold BArgs.word; rw [BitVec.getLsbD_append]; rfl
theorem MArgs_low (major : BitVec 6) (o : MArgs) : (MArgs.word major o).getLsbD 0 = true := by
  unfold MArgs.word; rw [BitVec.getLsbD_append]; rfl
theorem MpArgs_low (major : BitVec 6) (o : MpArgs) : (MpArgs.word major o).getLsbD 0 = true := by
  unfold MpArgs.word; rw [BitVec.getLsbD_append]; rfl
theorem MuArgs_low (major : BitVec 6) (o : MuArgs) : (MuArgs.word major o).getLsbD 0 = true := by
  unfold MuArgs.word; rw [BitVec.getLsbD_append]; rfl
theorem SArgs_low (major : BitVec 6) (fn : BitVec 8) (o : SArgs) : (SArgs.word major fn o).getLsbD 0 = true := by
  unfold SArgs.word; rw [BitVec.getLsbD_append]; rfl
theorem VArgs_low (major : BitVec 6) (fn : BitVec 5) (o : VArgs) : (VArgs.word major fn o).getLsbD 0 = true := by
  unfold VArgs.word; rw [BitVec.getLsbD_append]; rfl
theorem VnArgs_low (major : BitVec 6) (fn : BitVec 5) (ty : BitVec 3) (o : VnArgs) : (VnArgs.word major fn ty o).getLsbD 0 = true := by
  unfold VnArgs.word; rw [BitVec.getLsbD_append]; rfl
theorem CvArgs_low (major : BitVec 6) (fn : BitVec 1) (o : CvArgs) : (CvArgs.word major fn o).getLsbD 0 = true := by
  unfold CvArgs.word; rw [BitVec.getLsbD_append]; rfl
theorem TfArgs_low (major : BitVec 6) (fn : BitVec 5) (o : TfArgs) : (TfArgs.word major fn o).getLsbD 0 = true := by
  unfold TfArgs.word; rw [BitVec.getLsbD_append]; rfl
theorem PArgs_low (major : BitVec 6) (o : PArgs) : (PArgs.word major o).getLsbD 0 = true := by
  unfold PArgs.word; rw [BitVec.getLsbD_append]; rfl
theorem HArgs_low (op : BitVec 4) (o : HArgs) : (HArgs.word op o).getLsbD 0 = false := by
  unfold HArgs.word; rw [BitVec.getLsbD_append]; rfl
theorem HintArgs_low (o : HintArgs) : (HintArgs.word o).getLsbD 0 = true := by
  unfold HintArgs.word; rw [BitVec.getLsbD_append]; rfl

/-! ### The constructors -/

theorem add o : Statement (.add o) := RArgs_low _ _ _
theorem sub o : Statement (.sub o) := RArgs_low _ _ _
theorem and o : Statement (.and o) := RArgs_low _ _ _
theorem or o : Statement (.or o) := RArgs_low _ _ _
theorem xor o : Statement (.xor o) := RArgs_low _ _ _
theorem sll o : Statement (.sll o) := RArgs_low _ _ _
theorem srl o : Statement (.srl o) := RArgs_low _ _ _
theorem sra o : Statement (.sra o) := RArgs_low _ _ _
theorem rol o : Statement (.rol o) := RArgs_low _ _ _
theorem slt o : Statement (.slt o) := RArgs_low _ _ _
theorem sltu o : Statement (.sltu o) := RArgs_low _ _ _
theorem min o : Statement (.min o) := RArgs_low _ _ _
theorem max o : Statement (.max o) := RArgs_low _ _ _
theorem minu o : Statement (.minu o) := RArgs_low _ _ _
theorem maxu o : Statement (.maxu o) := RArgs_low _ _ _
theorem cmov o : Statement (.cmov o) := RArgs_low _ _ _
theorem mul o : Statement (.mul o) := RArgs_low _ _ _
theorem mulh o : Statement (.mulh o) := RArgs_low _ _ _
theorem mulhu o : Statement (.mulhu o) := RArgs_low _ _ _
theorem div o : Statement (.div o) := RArgs_low _ _ _
theorem divu o : Statement (.divu o) := RArgs_low _ _ _
theorem rem o : Statement (.rem o) := RArgs_low _ _ _
theorem remu o : Statement (.remu o) := RArgs_low _ _ _
theorem clz o : Statement (.clz o) := RArgs_low _ _ _
theorem ctz o : Statement (.ctz o) := RArgs_low _ _ _
theorem popc o : Statement (.popc o) := RArgs_low _ _ _
theorem omk o : Statement (.omk o) := RArgs_low _ _ _
theorem oid o : Statement (.oid o) := RArgs_low _ _ _
theorem ooff o : Statement (.ooff o) := RArgs_low _ _ _
theorem lspc o : Statement (.lspc o) := RArgs_low _ _ _
theorem addi o : Statement (.addi o) := IArgs_low _ _
theorem andi o : Statement (.andi o) := IArgs_low _ _
theorem ori o : Statement (.ori o) := IArgs_low _ _
theorem xori o : Statement (.xori o) := IArgs_low _ _
theorem slti o : Statement (.slti o) := IArgs_low _ _
theorem sltiu o : Statement (.sltiu o) := IArgs_low _ _
theorem slli o : Statement (.slli o) := ShArgs_low _ _ _
theorem srli o : Statement (.srli o) := ShArgs_low _ _ _
theorem srai o : Statement (.srai o) := ShArgs_low _ _ _
theorem roli o : Statement (.roli o) := ShArgs_low _ _ _
theorem lui o : Statement (.lui o) := UArgs_low _ _
theorem auipc o : Statement (.auipc o) := UArgs_low _ _
theorem beq o : Statement (.beq o) := BArgs_low _ _ _
theorem bne o : Statement (.bne o) := BArgs_low _ _ _
theorem blt o : Statement (.blt o) := BArgs_low _ _ _
theorem bge o : Statement (.bge o) := BArgs_low _ _ _
theorem bltu o : Statement (.bltu o) := BArgs_low _ _ _
theorem bgeu o : Statement (.bgeu o) := BArgs_low _ _ _
theorem jal o : Statement (.jal o) := UArgs_low _ _
theorem jalr o : Statement (.jalr o) := IArgs_low _ _
theorem ld o : Statement (.ld o) := MArgs_low _ _
theorem prefetch o : Statement (.prefetch o) := MpArgs_low _ _
theorem st o : Statement (.st o) := MArgs_low _ _
theorem stUpd o : Statement (.stUpd o) := MuArgs_low _ _
theorem amoAdd o : Statement (.amoAdd o) := AmoArgs_low _ _ _
theorem amoAnd o : Statement (.amoAnd o) := AmoArgs_low _ _ _
theorem amoOr o : Statement (.amoOr o) := AmoArgs_low _ _ _
theorem amoXor o : Statement (.amoXor o) := AmoArgs_low _ _ _
theorem amoMin o : Statement (.amoMin o) := AmoArgs_low _ _ _
theorem amoMax o : Statement (.amoMax o) := AmoArgs_low _ _ _
theorem amoMinu o : Statement (.amoMinu o) := AmoArgs_low _ _ _
theorem amoMaxu o : Statement (.amoMaxu o) := AmoArgs_low _ _ _
theorem amoSwap o : Statement (.amoSwap o) := AmoArgs_low _ _ _
theorem amoCas o : Statement (.amoCas o) := AmoArgs_low _ _ _
theorem amoAddP o : Statement (.amoAddP o) := AmoPArgs_low _ _ _
theorem amoAndP o : Statement (.amoAndP o) := AmoPArgs_low _ _ _
theorem amoOrP o : Statement (.amoOrP o) := AmoPArgs_low _ _ _
theorem amoXorP o : Statement (.amoXorP o) := AmoPArgs_low _ _ _
theorem amoMinP o : Statement (.amoMinP o) := AmoPArgs_low _ _ _
theorem amoMaxP o : Statement (.amoMaxP o) := AmoPArgs_low _ _ _
theorem amoMinuP o : Statement (.amoMinuP o) := AmoPArgs_low _ _ _
theorem amoMaxuP o : Statement (.amoMaxuP o) := AmoPArgs_low _ _ _
theorem amoSwapP o : Statement (.amoSwapP o) := AmoPArgs_low _ _ _
theorem acqX o : Statement (.acqX o) := RArgs_low _ _ _
theorem acqS o : Statement (.acqS o) := RArgs_low _ _ _
theorem tryacqX o : Statement (.tryacqX o) := RArgs_low _ _ _
theorem rel o : Statement (.rel o) := RArgs_low _ _ _
theorem bind o : Statement (.bind o) := RArgs_low _ _ _
theorem unbind o : Statement (.unbind o) := RArgs_low _ _ _
theorem fenceG o : Statement (.fenceG o) := RArgs_low _ _ _
theorem fenceL o : Statement (.fenceL o) := RArgs_low _ _ _
theorem commit o : Statement (.commit o) := RArgs_low _ _ _
theorem mon o : Statement (.mon o) := RArgs_low _ _ _
theorem mwait o : Statement (.mwait o) := RArgs_low _ _ _
theorem waitt o : Statement (.waitt o) := RArgs_low _ _ _
theorem fork o : Statement (.fork o) := RArgs_low _ _ _
theorem spawn o : Statement (.spawn o) := RArgs_low _ _ _
theorem done o : Statement (.done o) := RArgs_low _ _ _
theorem yield o : Statement (.yield o) := RArgs_low _ _ _
theorem dec o : Statement (.dec o) := RArgs_low _ _ _
theorem send o : Statement (.send o) := RArgs_low _ _ _
theorem sendA o : Statement (.sendA o) := RArgs_low _ _ _
theorem hold o : Statement (.hold o) := RArgs_low _ _ _
theorem ready o : Statement (.ready o) := RArgs_low _ _ _
theorem chbind o : Statement (.chbind o) := RArgs_low _ _ _
theorem gang o : Statement (.gang o) := RArgs_low _ _ _
theorem disband o : Statement (.disband o) := RArgs_low _ _ _
theorem crest o : Statement (.crest o) := RArgs_low _ _ _
theorem bar o : Statement (.bar o) := RArgs_low _ _ _
theorem csrr o : Statement (.csrr o) := SArgs_low _ _ _
theorem csrw o : Statement (.csrw o) := SArgs_low _ _ _
theorem csrs o : Statement (.csrs o) := SArgs_low _ _ _
theorem csrc o : Statement (.csrc o) := SArgs_low _ _ _
theorem trap o : Statement (.trap o) := SArgs_low _ _ _
theorem brk o : Statement (.brk o) := SArgs_low _ _ _
theorem halt o : Statement (.halt o) := SArgs_low _ _ _
theorem sleep o : Statement (.sleep o) := SArgs_low _ _ _
theorem tmark o : Statement (.tmark o) := SArgs_low _ _ _
theorem fadd o : Statement (.fadd o) := VArgs_low _ _ _
theorem fsub o : Statement (.fsub o) := VArgs_low _ _ _
theorem fmul o : Statement (.fmul o) := VArgs_low _ _ _
theorem ffma o : Statement (.ffma o) := VArgs_low _ _ _
theorem ffms o : Statement (.ffms o) := VArgs_low _ _ _
theorem fnma o : Statement (.fnma o) := VArgs_low _ _ _
theorem fdiv o : Statement (.fdiv o) := VArgs_low _ _ _
theorem fsqrt o : Statement (.fsqrt o) := VArgs_low _ _ _
theorem fmin o : Statement (.fmin o) := VArgs_low _ _ _
theorem fmax o : Statement (.fmax o) := VArgs_low _ _ _
theorem fabs o : Statement (.fabs o) := VArgs_low _ _ _
theorem fneg o : Statement (.fneg o) := VArgs_low _ _ _
theorem fcpys o : Statement (.fcpys o) := VArgs_low _ _ _
theorem frnd o : Statement (.frnd o) := VArgs_low _ _ _
theorem iadd o : Statement (.iadd o) := VArgs_low _ _ _
theorem isub o : Statement (.isub o) := VArgs_low _ _ _
theorem imul o : Statement (.imul o) := VArgs_low _ _ _
theorem imulh o : Statement (.imulh o) := VArgs_low _ _ _
theorem imulhu o : Statement (.imulhu o) := VArgs_low _ _ _
theorem iand o : Statement (.iand o) := VArgs_low _ _ _
theorem ior o : Statement (.ior o) := VArgs_low _ _ _
theorem ixor o : Statement (.ixor o) := VArgs_low _ _ _
theorem ishl o : Statement (.ishl o) := VArgs_low _ _ _
theorem ishr o : Statement (.ishr o) := VArgs_low _ _ _
theorem isar o : Statement (.isar o) := VArgs_low _ _ _
theorem imin o : Statement (.imin o) := VArgs_low _ _ _
theorem imax o : Statement (.imax o) := VArgs_low _ _ _
theorem iabs o : Statement (.iabs o) := VArgs_low _ _ _
theorem iadds o : Statement (.iadds o) := VArgs_low _ _ _
theorem isubs o : Statement (.isubs o) := VArgs_low _ _ _
theorem ipopc o : Statement (.ipopc o) := VArgs_low _ _ _
theorem iclz o : Statement (.iclz o) := VArgs_low _ _ _
theorem iminu o : Statement (.iminu o) := VArgs_low _ _ _
theorem imaxu o : Statement (.imaxu o) := VArgs_low _ _ _
theorem fceq o : Statement (.fceq o) := VArgs_low _ _ _
theorem fclt o : Statement (.fclt o) := VArgs_low _ _ _
theorem fcle o : Statement (.fcle o) := VArgs_low _ _ _
theorem fcun o : Statement (.fcun o) := VArgs_low _ _ _
theorem fcne o : Statement (.fcne o) := VArgs_low _ _ _
theorem iceq o : Statement (.iceq o) := VArgs_low _ _ _
theorem iclt o : Statement (.iclt o) := VArgs_low _ _ _
theorem icltu o : Statement (.icltu o) := VArgs_low _ _ _
theorem icne o : Statement (.icne o) := VArgs_low _ _ _
theorem fclass o : Statement (.fclass o) := VArgs_low _ _ _
theorem mand o : Statement (.mand o) := VArgs_low _ _ _
theorem mor o : Statement (.mor o) := VArgs_low _ _ _
theorem mxor o : Statement (.mxor o) := VArgs_low _ _ _
theorem mandn o : Statement (.mandn o) := VArgs_low _ _ _
theorem mnot o : Statement (.mnot o) := VArgs_low _ _ _
theorem cvt o : Statement (.cvt o) := CvArgs_low _ _ _
theorem cvts o : Statement (.cvts o) := CvArgs_low _ _ _
theorem frcp o : Statement (.frcp o) := VArgs_low _ _ _
theorem frsq o : Statement (.frsq o) := VArgs_low _ _ _
theorem fex2 o : Statement (.fex2 o) := VArgs_low _ _ _
theorem flg2 o : Statement (.flg2 o) := VArgs_low _ _ _
theorem fsin o : Statement (.fsin o) := VArgs_low _ _ _
theorem fcos o : Statement (.fcos o) := VArgs_low _ _ _
theorem ftanh o : Statement (.ftanh o) := VArgs_low _ _ _
theorem rsum o : Statement (.rsum o) := VArgs_low _ _ _
theorem rmax o : Statement (.rmax o) := VArgs_low _ _ _
theorem rmin o : Statement (.rmin o) := VArgs_low _ _ _
theorem ramax o : Statement (.ramax o) := VArgs_low _ _ _
theorem argmax o : Statement (.argmax o) := VArgs_low _ _ _
theorem scan o : Statement (.scan o) := VArgs_low _ _ _
theorem voteAny o : Statement (.voteAny o) := VnArgs_low _ _ _ _
theorem voteAll o : Statement (.voteAll o) := VnArgs_low _ _ _ _
theorem voteNone o : Statement (.voteNone o) := VnArgs_low _ _ _ _
theorem popm o : Statement (.popm o) := VArgs_low _ _ _
theorem bcast o : Statement (.bcast o) := VArgs_low _ _ _
theorem xtr o : Statement (.xtr o) := VArgs_low _ _ _
theorem ins o : Statement (.ins o) := VArgs_low _ _ _
theorem perm o : Statement (.perm o) := VArgs_low _ _ _
theorem slide o : Statement (.slide o) := VArgs_low _ _ _
theorem iota o : Statement (.iota o) := VArgs_low _ _ _
theorem vld o : Statement (.vld o) := VArgs_low _ _ _
theorem vlds o : Statement (.vlds o) := VArgs_low _ _ _
theorem vst o : Statement (.vst o) := VArgs_low _ _ _
theorem vsts o : Statement (.vsts o) := VArgs_low _ _ _
theorem vgath o : Statement (.vgath o) := VArgs_low _ _ _
theorem vscat o : Statement (.vscat o) := VArgs_low _ _ _
theorem vldt o : Statement (.vldt o) := VArgs_low _ _ _
theorem vldl o : Statement (.vldl o) := VArgs_low _ _ _
theorem vstl o : Statement (.vstl o) := VArgs_low _ _ _
theorem vtag o : Statement (.vtag o) := VArgs_low _ _ _
theorem vstag o : Statement (.vstag o) := VArgs_low _ _ _
theorem qnt o : Statement (.qnt o) := VArgs_low _ _ _
theorem dqnt o : Statement (.dqnt o) := VArgs_low _ _ _
theorem unpk o : Statement (.unpk o) := VnArgs_low _ _ _ _
theorem unpkT o : Statement (.unpkT o) := VnArgs_low _ _ _ _
theorem pack o : Statement (.pack o) := VArgs_low _ _ _
theorem ctab o : Statement (.ctab o) := VArgs_low _ _ _
theorem ctenc o : Statement (.ctenc o) := VArgs_low _ _ _
theorem rng o : Statement (.rng o) := VArgs_low _ _ _
theorem ctld o : Statement (.ctld o) := VArgs_low _ _ _
theorem mma o : Statement (.mma o) := VArgs_low _ _ _
theorem mz o : Statement (.mz o) := VArgs_low _ _ _
theorem mld o : Statement (.mld o) := VArgs_low _ _ _
theorem mst o : Statement (.mst o) := VArgs_low _ _ _
theorem mrd o : Statement (.mrd o) := VArgs_low _ _ _
theorem mwr o : Statement (.mwr o) := VArgs_low _ _ _
theorem mcfgMode o : Statement (.mcfgMode o) := VnArgs_low _ _ _ _
theorem mcfgScale o : Statement (.mcfgScale o) := VnArgs_low _ _ _ _
theorem cpy o : Statement (.cpy o) := CpyArgs_low _ _ _
theorem cpya o : Statement (.cpya o) := CpyArgs_low _ _ _
theorem cpyg o : Statement (.cpyg o) := CpyArgs_low _ _ _
theorem qfence o : Statement (.qfence o) := QfArgs_low _ _ _
theorem cstat o : Statement (.cstat o) := CpyArgs_low _ _ _
theorem repb o : Statement (.repb o) := RArgs_low _ _ _
theorem repx o : Statement (.repx o) := RArgs_low _ _ _
theorem repw o : Statement (.repw o) := RArgs_low _ _ _
theorem tseq o : Statement (.tseq o) := VArgs_low _ _ _
theorem tseqFree o : Statement (.tseqFree o) := TfArgs_low _ _ _
theorem wset o : Statement (.wset o) := VArgs_low _ _ _
theorem tcommit o : Statement (.tcommit o) := VArgs_low _ _ _
theorem tdraft o : Statement (.tdraft o) := VArgs_low _ _ _
theorem tconf o : Statement (.tconf o) := VArgs_low _ _ _
theorem tread o : Statement (.tread o) := VArgs_low _ _ _
theorem wclr o : Statement (.wclr o) := VArgs_low _ _ _
theorem exroute o : Statement (.exroute o) := RArgs_low _ _ _
theorem exspawn o : Statement (.exspawn o) := RArgs_low _ _ _
theorem exact o : Statement (.exact o) := RArgs_low _ _ _
theorem exretire o : Statement (.exretire o) := RArgs_low _ _ _
theorem exjoin o : Statement (.exjoin o) := RArgs_low _ _ _
theorem exjoinF o : Statement (.exjoinF o) := RArgs_low _ _ _
theorem exstat o : Statement (.exstat o) := RArgs_low _ _ _
theorem expub o : Statement (.expub o) := RArgs_low _ _ _
theorem opta o : Statement (.opta o) := RArgs_low _ _ _
theorem optw o : Statement (.optw o) := RArgs_low _ _ _
theorem skipset o : Statement (.skipset o) := RArgs_low _ _ _
theorem skipclr o : Statement (.skipclr o) := RArgs_low _ _ _
theorem pfx o : Statement (.pfx o) := PArgs_low _ _
theorem hint o : Statement (.hint o) := HintArgs_low _
theorem vmov16 o : Statement (.vmov16 o) := HArgs_low _ _
theorem fadd16 o : Statement (.fadd16 o) := HArgs_low _ _
theorem fsub16 o : Statement (.fsub16 o) := HArgs_low _ _
theorem fmul16 o : Statement (.fmul16 o) := HArgs_low _ _
theorem fmax16 o : Statement (.fmax16 o) := HArgs_low _ _
theorem fmin16 o : Statement (.fmin16 o) := HArgs_low _ _
theorem fabs16 o : Statement (.fabs16 o) := HArgs_low _ _
theorem fneg16 o : Statement (.fneg16 o) := HArgs_low _ _
theorem iadd16 o : Statement (.iadd16 o) := HArgs_low _ _
theorem isub16 o : Statement (.isub16 o) := HArgs_low _ _
theorem iand16 o : Statement (.iand16 o) := HArgs_low _ _
theorem ior16 o : Statement (.ior16 o) := HArgs_low _ _
theorem ixor16 o : Statement (.ixor16 o) := HArgs_low _ _
theorem ishl16 o : Statement (.ishl16 o) := HArgs_low _ _
theorem ishr16 o : Statement (.ishr16 o) := HArgs_low _ _
theorem imul16 o : Statement (.imul16 o) := HArgs_low _ _
theorem dataReturn a b : Statement (.dataReturn a b) := rfl
theorem translationWalk a b : Statement (.translationWalk a b) := rfl
theorem faultPacketSend a : Statement (.faultPacketSend a) := rfl
theorem outboxEntryLeave a : Statement (.outboxEntryLeave a) := rfl
theorem messageDelivery a : Statement (.messageDelivery a) := rfl
theorem messageRefusal a : Statement (.messageRefusal a) := rfl
theorem holdArrival a : Statement (.holdArrival a) := rfl
theorem readyArrival a : Statement (.readyArrival a) := rfl
theorem taskPush a : Statement (.taskPush a) := rfl
theorem decAtHome a : Statement (.decAtHome a) := rfl
theorem deferredPush a : Statement (.deferredPush a) := rfl
theorem decRefusal a : Statement (.decRefusal a) := rfl
theorem atomicAtHome a : Statement (.atomicAtHome a) := rfl
theorem writeBackMerge a b : Statement (.writeBackMerge a b) := rfl
theorem activationChoice a : Statement (.activationChoice a) := rfl
theorem idleWake a : Statement (.idleWake a) := rfl
theorem stealProbe a : Statement (.stealProbe a) := rfl
theorem yieldDeadline a : Statement (.yieldDeadline a) := rfl
theorem sleepExpiry a : Statement (.sleepExpiry a) := rfl
theorem monitorTrigger a : Statement (.monitorTrigger a) := rfl
theorem waittExpiry a : Statement (.waittExpiry a) := rfl
theorem copyChunk a b : Statement (.copyChunk a b) := rfl
theorem mmaAccumulate a : Statement (.mmaAccumulate a) := rfl
theorem repIteration a : Statement (.repIteration a) := rfl
theorem homeAcquire a : Statement (.homeAcquire a) := rfl
theorem surrender a : Statement (.surrender a) := rfl
theorem acquireGrant a : Statement (.acquireGrant a) := rfl
theorem messageAcquireGrant a : Statement (.messageAcquireGrant a) := rfl
theorem releaseAtHome a : Statement (.releaseAtHome a) := rfl
theorem acquireWithdrawal a : Statement (.acquireWithdrawal a) := rfl
theorem acquireRetry a : Statement (.acquireRetry a) := rfl
theorem crestContribution a : Statement (.crestContribution a) := rfl
theorem crscLanding a : Statement (.crscLanding a) := rfl
theorem expertHomeOperation a : Statement (.expertHomeOperation a) := rfl
theorem expertAnswer a : Statement (.expertAnswer a) := rfl
theorem launchPost a b : Statement (.launchPost a b) := rfl
theorem launchAdmission a : Statement (.launchAdmission a) := rfl
theorem stampRecheck a : Statement (.stampRecheck a) := rfl
theorem rqgoPush a b : Statement (.rqgoPush a b) := rfl
theorem rqgoDrop a b : Statement (.rqgoDrop a b) := rfl
theorem sdgo a b : Statement (.sdgo a b) := rfl
theorem shootdownComplete a : Statement (.shootdownComplete a) := rfl
theorem pvgo a b : Statement (.pvgo a b) := rfl
theorem vacateHandoff a : Statement (.vacateHandoff a) := rfl
theorem xtinv a b : Statement (.xtinv a b) := rfl
theorem skipfWrite a : Statement (.skipfWrite a) := rfl
theorem governorPeriod : Statement (.governorPeriod) := rfl
theorem esnap a : Statement (.esnap a) := rfl
theorem packageReset : Statement (.packageReset) := rfl
theorem firmwareBoot : Statement (.firmwareBoot) := rfl
theorem hmsg a b : Statement (.hmsg a b) := rfl
theorem hostMessageLeave : Statement (.hostMessageLeave) := rfl
theorem packageServiceMessageLeave : Statement (.packageServiceMessageLeave) := rfl
theorem cxlMemRead a : Statement (.cxlMemRead a) := rfl
theorem cxlMemWrite a b : Statement (.cxlMemWrite a b) := rfl
theorem hostSnoop a : Statement (.hostSnoop a) := rfl
theorem bfgo a : Statement (.bfgo a) := rfl
theorem biasFlipComplete : Statement (.biasFlipComplete) := rfl
theorem hostLinkDown : Statement (.hostLinkDown) := rfl
theorem hostLinkUp : Statement (.hostLinkUp) := rfl
theorem emgo a b : Statement (.emgo a b) := rfl
theorem ergRetry a : Statement (.ergRetry a) := rfl
theorem ergFlitArrival a : Statement (.ergFlitArrival a) := rfl
theorem ergAck a : Statement (.ergAck a) := rfl
theorem ergPortDown a : Statement (.ergPortDown a) := rfl
theorem ergUnreachable a : Statement (.ergUnreachable a) := rfl
theorem ergLinkTraining a : Statement (.ergLinkTraining a) := rfl
theorem sampleRecord a : Statement (.sampleRecord a) := rfl
theorem traceFlush a : Statement (.traceFlush a) := rfl
theorem resume a : Statement (.resume a) := rfl
theorem restart a : Statement (.restart a) := rfl
theorem kill a : Statement (.kill a) := rfl
theorem stop a : Statement (.stop a) := rfl
theorem cancel a : Statement (.cancel a) := rfl
theorem preciseStop a : Statement (.preciseStop a) := rfl
theorem mcfgmWrite a b : Statement (.mcfgmWrite a b) := rfl
theorem dstatWrite a b : Statement (.dstatWrite a b) := rfl
theorem cxcancel a b : Statement (.cxcancel a b) := rfl
theorem lbgoDispatch a : Statement (.lbgoDispatch a) := rfl
theorem lbgoDrop a : Statement (.lbgoDrop a) := rfl
theorem drqLoad a : Statement (.drqLoad a) := rfl
theorem drqStore a : Statement (.drqStore a) := rfl
theorem drrev a : Statement (.drrev a) := rfl
theorem registerWrite a b : Statement (.registerWrite a b) := rfl
theorem managementPortLock : Statement (.managementPortLock) := rfl
theorem invalidationComplete a : Statement (.invalidationComplete a) := rfl
theorem attestationReport : Statement (.attestationReport) := rfl

end Sys2Proof.Laws.LengthBit
end

