-- ==== Sys2Proof/Tests/Slice0.lean ====
section
/-!
SUPPORT. Tests: ill-formed terms that the checks refuse, words written out from the encoding tables, small steps with results
worked out from the rules, and for every statement with hypotheses a state and operands that meet them.
-/

namespace Sys2Proof.Tests

open Sys2Proof Sys2Proof.Machine

set_option Elab.async false

/-! ### Ill-formed terms: one for each check of WellFormed (R85, R87, R93 to R100, R103) -/

/-- Floating arithmetic of type I32. -/
theorem test_wf_vfp_type : Instr.illegal (.fadd ⟨4, 0, 0, 3, 2, 1⟩) = some .type := rfl
/-- An F64 destination in an odd register. -/
theorem test_wf_vfp_pair : Instr.illegal (.fmul ⟨1, 0, 0, 4, 2, 1⟩) = some .oddPair := rfl
theorem test_wf_vfp1 : Instr.illegal (.fsqrt ⟨1, 0, 0, 0, 3, 2⟩) = some .oddPair := rfl
theorem test_wf_vint_type : Instr.illegal (.iadd ⟨3, 0, 0, 3, 2, 1⟩) = some .type := rfl
/-- A broadcast vb of a pair type may be odd; a vector vb may not. -/
theorem test_wf_vint_vb : Instr.illegal (.iadd ⟨7, 0, 0, 3, 2, 4⟩) = some .oddPair ∧ Instr.illegal (.iadd ⟨7, 1, 0, 3, 2, 4⟩) = none :=
  ⟨rfl, rfl⟩
theorem test_wf_vint1 : Instr.illegal (.iabs ⟨0, 0, 0, 0, 2, 1⟩) = some .type := rfl
/-- Comparisons take no packed type, and no destination m0. -/
theorem test_wf_fcmp : Instr.illegal (.fceq ⟨2, 0, 0, 3, 2, 1⟩) = some .type ∧ Instr.illegal (.fceq ⟨0, 0, 0, 3, 2, 0⟩) = some .fileNumber :=
  ⟨rfl, rfl⟩
theorem test_wf_icmp : Instr.illegal (.iclt ⟨6, 0, 0, 3, 2, 1⟩) = some .type ∧ Instr.illegal (.iclt ⟨4, 0, 0, 3, 2, 8⟩) = some .fileNumber :=
  ⟨rfl, rfl⟩
theorem test_wf_mask2 : Instr.illegal (.mand ⟨0, 0, 0, 13, 2, 1⟩) = some .fileNumber ∧ Instr.illegal (.mand ⟨0, 0, 0, 12, 2, 1⟩) = none :=
  ⟨rfl, rfl⟩
theorem test_wf_mask1 : Instr.illegal (.mnot ⟨0, 0, 0, 0, 31, 1⟩) = some .fileNumber := rfl
/-- F32 to F32; source code 19; .crest of an integer source. -/
theorem test_wf_vcvt : Instr.illegal (.cvt ⟨0, 0, 0, 0, 0, 0, 0, 2, 1⟩) = some .conversion ∧
    Instr.illegal (.cvt ⟨2, 0, 0, 3, 0, 0, 0, 2, 1⟩) = some .conversion ∧ Instr.illegal (.cvt ⟨0, 1, 0, 4, 0, 0, 0, 2, 1⟩) = some .conversion ∧
    Instr.illegal (.cvts ⟨0, 0, 0, 0, 0, 0, 1, 2, 1⟩) = some .oddPair := ⟨rfl, rfl, rfl, rfl⟩
theorem test_wf_vsfu : Instr.illegal (.frcp ⟨1, 0, 0, 0, 2, 1⟩) = some .type := rfl
theorem test_wf_reduce : Instr.illegal (.rsum ⟨7, 0, 0, 0, 3, 1⟩) = some .oddPair := rfl
theorem test_wf_ramax : Instr.illegal (.ramax ⟨4, 0, 0, 0, 2, 1⟩) = some .type := rfl
theorem test_wf_argmax : Instr.illegal (.argmax ⟨6, 0, 0, 0, 2, 1⟩) = some .type := rfl
theorem test_wf_vecDA : Instr.illegal (.slide ⟨1, 0, 0, 0, 3, 2⟩) = some .oddPair := rfl
theorem test_wf_vote : Instr.illegal (.voteAny ⟨0, 0, 0, 13, 1⟩) = some .fileNumber := rfl
theorem test_wf_popm : Instr.illegal (.popm ⟨0, 0, 0, 0, 13, 1⟩) = some .fileNumber := rfl
theorem test_wf_vecD : Instr.illegal (.vld ⟨7, 0, 0, 3, 2, 1⟩) = some .oddPair := rfl
theorem test_wf_vecA : Instr.illegal (.xtr ⟨7, 0, 0, 3, 3, 1⟩) = some .oddPair := rfl
theorem test_wf_perm : Instr.illegal (.perm ⟨1, 0, 0, 5, 4, 2⟩) = some .oddPair := rfl
theorem test_wf_vgath : Instr.illegal (.vgath ⟨1, 0, 0, 5, 4, 2⟩) = some .oddPair := rfl
/-- QNT takes selectors 13 to 17, 21 and 22. -/
theorem test_wf_qnt : Instr.illegal (.qnt ⟨3, 0, 0, 5, 4, 13⟩) = some .type ∧ Instr.illegal (.qnt ⟨0, 0, 0, 5, 4, 12⟩) = some .selector ∧
    Instr.illegal (.qnt ⟨0, 0, 0, 5, 4, 18⟩) = some .selector ∧ Instr.illegal (.qnt ⟨0, 0, 0, 5, 4, 22⟩) = none := ⟨rfl, rfl, rfl, rfl⟩
theorem test_wf_pack : Instr.illegal (.pack ⟨3, 0, 0, 5, 4, 0⟩) = some .type ∧ Instr.illegal (.pack ⟨0, 0, 0, 5, 4, 25⟩) = some .selector :=
  ⟨rfl, rfl⟩
theorem test_wf_table : Instr.illegal (.ctld ⟨2, 0, 0, 0, 4, 0⟩) = some .type := rfl
theorem test_wf_rng : Instr.illegal (.rng ⟨1, 0, 0, 0, 4, 0⟩) = some .type := rfl
theorem test_wf_tileD : Instr.illegal (.mz ⟨0, 0, 0, 0, 0, 8⟩) = some .fileNumber := rfl
theorem test_wf_mrd : Instr.illegal (.mrd ⟨2, 0, 0, 0, 0, 0⟩) = some .type ∧ Instr.illegal (.mrd ⟨0, 0, 0, 0, 8, 0⟩) = some .fileNumber ∧
    Instr.illegal (.mrd ⟨1, 0, 0, 0, 0, 3⟩) = some .oddPair := ⟨rfl, rfl, rfl⟩
theorem test_wf_mwr : Instr.illegal (.mwr ⟨2, 0, 0, 0, 0, 0⟩) = some .type ∧ Instr.illegal (.mwr ⟨0, 0, 0, 0, 0, 8⟩) = some .fileNumber ∧
    Instr.illegal (.mwr ⟨1, 0, 0, 0, 3, 0⟩) = some .oddPair := ⟨rfl, rfl, rfl⟩
theorem test_wf_ld : Instr.illegal (.ld ⟨0, 0, 0, 0, 5, 0⟩) = some .otherRow ∧ Instr.illegal (.ld ⟨0, 0, 7, 0, 5, 1⟩) = some .size ∧
    Instr.illegal (.ld ⟨0, 3, 0, 0, 5, 1⟩) = some .hint := ⟨rfl, rfl, rfl⟩
/-- A prefetch with an illegal size or hint fails its illegal-code check (R93), which makes it no fault (R144). -/
theorem test_wf_prefetch : Legal.prefetch ⟨0, 0, 7, 0, 5⟩ = some .size ∧ Legal.prefetch ⟨0, 3, 0, 0, 5⟩ = some .hint ∧
    Instr.illegal (.prefetch ⟨0, 3, 7, 0, 5⟩) = none := ⟨rfl, rfl, rfl⟩
theorem test_wf_st : Instr.illegal (.st ⟨0, 3, 0, 0, 5, 1⟩) = some .otherRow ∧ Instr.illegal (.st ⟨0, 0, 4, 0, 5, 1⟩) = some .size := ⟨rfl, rfl⟩
theorem test_wf_stUpd : Instr.illegal (.stUpd ⟨0, 4, 0, 5, 1⟩) = some .size := rfl
theorem test_wf_tseq : Instr.illegal (.tseq ⟨0, 0, 0, 1, 0, 2⟩) = some .otherRow := rfl
theorem test_wf_exjoinF : Instr.illegal (.exjoinF ⟨0, 0, 0, 5, 0⟩) = some .finalJoinWithoutPartial := rfl
theorem test_wf_vmov16 : Instr.illegal (.vmov16 ⟨0, 0, 0⟩) = some .zeroHalfword ∧ Instr.illegal (.vmov16 ⟨1, 0, 0⟩) = none := ⟨rfl, rfl⟩
/-- A step of another agent is no encoded instruction. -/
theorem test_wf_event : Instr.illegal (.resume 3) = some .event := rfl
/-- Rounding value 7 makes every prefixed instruction illegal, and 5 floating arithmetic (R33, R86); an odd c for a pair type (R99). -/
theorem test_wf_prefix : Instr.illegalUnder ⟨0, 0, 0, 7, 0, 0⟩ (.iadd ⟨4, 0, 0, 3, 2, 1⟩) = true ∧
    Instr.illegalUnder ⟨0, 0, 0, 5, 0, 0⟩ (.fadd ⟨0, 0, 0, 3, 2, 1⟩) = true ∧ Instr.illegalUnder ⟨0, 1, 3, 6, 0, 0⟩ (.ffma ⟨1, 0, 0, 4, 2, 0⟩) = true ∧
    Instr.illegalUnder ⟨0, 1, 2, 6, 0, 0⟩ (.ffma ⟨1, 0, 0, 4, 2, 0⟩) = false := ⟨rfl, rfl, rfl, rfl⟩

/-! ### Words written out from the encoding tables (R82, R89 to R102), one or more of each major -/

/-- ALU (R91): fn 0x1A, POPC s3 ← s4, the t bit of a set. -/
theorem test_decode_alu : decode32 0b00011010_0_1_00000_00100_00011_000000_1 = .ok (.popc ⟨0, 1, 0, 4, 3⟩) := rfl
theorem test_decode_alu_hole : decode32 0b00010111_0_0_00101_00100_00011_000000_1 = .error .function := rfl
/-- ADDI s1, s2, −1 (R92). -/
theorem test_decode_addi : decode32 0b11111111111111_0_00010_00001_000001_1 = .ok (.addi ⟨0x3FFF, 0, 2, 1⟩) := rfl
/-- SHI (R92): imm14<7:6> = 3 is ROLI, by 5. -/
theorem test_decode_roli : decode32 0b000000_11_000101_1_00010_00001_000111_1 = .ok (.roli ⟨0, 5, 1, 2, 1⟩) := rfl
theorem test_decode_lui : decode32 0b00000000000000000101_00111_001000_1 = .ok (.lui ⟨5, 7⟩) := rfl
/-- BR (R92): condition 5 is GEU; 6 is illegal. -/
theorem test_decode_bgeu : decode32 0b000000000011_101_00010_00001_001010_1 = .ok (.bgeu ⟨3, 2, 1⟩) := rfl
theorem test_decode_br_hole : decode32 0b000000000011_110_00010_00001_001010_1 = .error .condition := rfl
theorem test_decode_jal : decode32 0b11111111111111111110_11111_001011_1 = .ok (.jal ⟨0xFFFFE, 31⟩) := rfl
/-- M (R93): LD of size WU with hint .by; d = s0 is a prefetch; ST of size D with hint .upd; an illegal store size. -/
theorem test_decode_ld : decode32 0b000000010_10_110_1_00111_00110_001101_1 = .ok (.ld ⟨2, 2, 6, 1, 7, 6⟩) := rfl
theorem test_decode_prefetch : decode32 0b000000010_00_011_0_00111_00000_001101_1 = .ok (.prefetch ⟨2, 0, 3, 0, 7⟩) ∧
    decode32 0b000000010_11_111_0_00111_00000_001101_1 = .ok (.prefetch ⟨2, 3, 7, 0, 7⟩) := ⟨rfl, rfl⟩
theorem test_decode_st_upd : decode32 0b000000010_11_011_0_00111_00110_001110_1 = .ok (.stUpd ⟨2, 3, 0, 7, 6⟩) := rfl
theorem test_decode_st_size : decode32 0b000000010_00_100_0_00111_00110_001110_1 = .error .size := rfl
/-- AMO (R94): posted SWAP of 32 bits; a posted one with a destination; posted CAS. -/
theorem test_decode_amo_posted : decode32 0b00_1_1_1000_0_0_00110_00101_00000_001111_1 = .ok (.amoSwapP ⟨0, 1, 0, 0, 6, 5⟩) := rfl
theorem test_decode_amo_posted_d : decode32 0b00_1_1_1000_0_0_00110_00101_00001_001111_1 = .error .postedAtomic := rfl
theorem test_decode_amo_posted_cas : decode32 0b00_1_1_1001_0_0_00110_00101_00000_001111_1 = .error .postedAtomic := rfl
/-- SYNC, TASK, CLU, SYS (R95). -/
theorem test_decode_tryacq : decode32 0b00000011_0_0_00000_00101_00010_010000_1 = .ok (.tryacqX ⟨0, 0, 0, 5, 2⟩) := rfl
theorem test_decode_waitt : decode32 0b00010010_0_1_00000_00101_00000_010000_1 = .ok (.waitt ⟨0, 1, 0, 5, 0⟩) := rfl
theorem test_decode_send_a : decode32 0b00000111_0_0_00110_00101_00111_010001_1 = .ok (.sendA ⟨0, 0, 6, 5, 7⟩) := rfl
theorem test_decode_gang : decode32 0b00000001_0_0_00000_00101_00010_010010_1 = .ok (.gang ⟨0, 0, 0, 5, 2⟩) := rfl
theorem test_decode_tmark : decode32 0b00001100_000000101010_00101_010011_1 = .ok (.tmark ⟨0x2A, 5⟩) := rfl
/-- Vector groups (R96): FCPYS is fn5 12; ICLZ is fn5 17; FCLASS is VCMP 9; VFP type 4 is illegal. -/
theorem test_decode_vfp : decode32 0b01100_000_0_0_00011_00010_00001_010100_1 = .ok (.fcpys ⟨0, 0, 0, 3, 2, 1⟩) := rfl
theorem test_decode_vfp_type : decode32 0b00000_100_0_0_00011_00010_00001_010100_1 = .error .type := rfl
theorem test_decode_vint : decode32 0b10001_110_0_1_00000_00010_00001_010101_1 = .ok (.iclz ⟨6, 0, 1, 0, 2, 1⟩) := rfl
theorem test_decode_vcmp : decode32 0b01001_011_0_0_00000_00010_00001_010110_1 = .ok (.fclass ⟨3, 0, 0, 0, 2, 1⟩) := rfl
/-- VCVT (R97): source code 8 (F19) is fn5<4:3> = 1 with type 0; .crest, .sat; CVTS to E2M1 (code 12). -/
theorem test_decode_vcvt : decode32 0b01_1_1_1_000_0_0_01100_00010_00001_010111_1 = .ok (.cvts ⟨1, 1, 1, 0, 0, 0, 12, 2, 1⟩) := rfl
theorem test_decode_vsfu : decode32 0b00110_010_0_0_00000_00010_00001_011000_1 = .ok (.ftanh ⟨2, 0, 0, 0, 2, 1⟩) := rfl
/-- VOTE (R96): its type field is its kind; kind 3 is illegal. -/
theorem test_decode_vote : decode32 0b00110_001_0_0_00000_01100_00101_011001_1 = .ok (.voteAll ⟨0, 0, 0, 12, 5⟩) := rfl
theorem test_decode_vote_hole : decode32 0b00110_011_0_0_00000_01100_00101_011001_1 = .error .type := rfl
theorem test_decode_vperm : decode32 0b00100_101_0_0_00111_00010_00001_011010_1 = .ok (.slide ⟨5, 0, 0, 7, 2, 1⟩) := rfl
theorem test_decode_vld : decode32 0b00001_010_0_0_00111_00010_00001_011011_1 = .ok (.vlds ⟨2, 0, 0, 7, 2, 1⟩) := rfl
theorem test_decode_vst : decode32 0b00000_101_0_0_00111_00010_00001_011100_1 = .ok (.vst ⟨5, 0, 0, 7, 2, 1⟩) := rfl
theorem test_decode_vmemx : decode32 0b00001_000_1_0_00111_00010_00001_011101_1 = .ok (.vscat ⟨0, 1, 0, 7, 2, 1⟩) := rfl
theorem test_decode_vqnt : decode32 0b00000_001_0_0_00111_00010_01101_011110_1 = .ok (.qnt ⟨1, 0, 0, 7, 2, 13⟩) := rfl
theorem test_decode_mtx : decode32 0b00000_000_0_0_00111_00110_00111_011111_1 = .ok (.mma ⟨0, 0, 0, 7, 6, 7⟩) := rfl
/-- CPY (R100): fn<2:0> 2 on queue 3; QFENCE with mask 9; fn<2:0> 5 is illegal. -/
theorem test_decode_cpyg : decode32 0b0_00_11_010_0_0_00000_00101_00110_100000_1 = .ok (.cpyg ⟨0, 0, 3, 0, 0, 0, 5, 6⟩) := rfl
theorem test_decode_qfence : decode32 0b0_1001_011_0_0_00000_00000_00000_100000_1 = .ok (.qfence ⟨0, 9, 0, 0, 0, 0, 0⟩) := rfl
theorem test_decode_cpy_hole : decode32 0b0_00_00_101_0_0_00000_00101_00110_100000_1 = .error .function := rfl
theorem test_decode_rep : decode32 0b00000000_0_0_00011_00000_00000_100001_1 = .ok (.repb ⟨0, 0, 3, 0, 0⟩) := rfl
/-- The worked TOK word of R233, and TSEQ with va = s0. -/
theorem test_decode_tcommit : decode32 0x100411C5 = .ok (.tcommit ⟨0, 0, 0, 2, 1, 3⟩) := rfl
theorem test_decode_tseq_free : decode32 0b00000_000_0_0_00110_00000_00101_100010_1 = .ok (.tseqFree ⟨0, 0, 0, 6, 5⟩) := rfl
/-- The worked EXP words of R383, and an EXJOIN.F without a partial. -/
theorem test_decode_exp : decode32 0x000C5447 = .ok (.exroute ⟨0, 0, 6, 5, 8⟩) ∧ decode32 0x010E54C7 = .ok (.exspawn ⟨0, 0, 7, 5, 9⟩) ∧
    decode32 0x02005047 = .ok (.exact ⟨0, 0, 0, 5, 0⟩) ∧ decode32 0x03005047 = .ok (.exretire ⟨0, 0, 0, 5, 0⟩) ∧
    decode32 0x040C5047 = .ok (.exjoin ⟨0, 0, 6, 5, 0⟩) ∧ decode32 0x840C5047 = .ok (.exjoinF ⟨0, 0, 6, 5, 0⟩) ∧
    decode32 0x05005547 = .ok (.exstat ⟨0, 0, 0, 5, 10⟩) ∧ decode32 0x06005047 = .ok (.expub ⟨0, 0, 0, 5, 0⟩) :=
  ⟨rfl, rfl, rfl, rfl, rfl, rfl, rfl, rfl⟩
theorem test_decode_exjoin_f : decode32 0x84005047 = .error .finalJoinWithoutPartial := rfl
theorem test_decode_upd : decode32 0b00000010_0_0_00000_00101_00000_100100_1 = .ok (.skipset ⟨0, 0, 0, 5, 0⟩) := rfl
/-- Unassigned majors (R90), the hint region (R102), the halfword 0x0000 and VMOV v0, v0 (R89). -/
theorem test_decode_major : decode32 0b0000000000000000000000000_100101_1 = .error .major ∧ decode32 0b0000000000000000000000000_111110_1 = .error .major :=
  ⟨rfl, rfl⟩
theorem test_decode_hint : decode32 0b1010101010101010101010101_111010_1 = .ok (.hint ⟨0x1555555, 2⟩) := rfl
theorem test_decode_zero : decode16 0x0000 = .error .zeroHalfword ∧ decode16 0x8000 = .ok (.vmov16 ⟨1, 0, 0⟩) := ⟨rfl, rfl⟩
/-- ISHR is op 0xE (R89). -/
theorem test_decode_half : decode16 0b1_00101_00011_1110_0 = .ok (.ishr16 ⟨1, 5, 3⟩) := rfl
/-- The bytes of the worked fragment, from 0x10C on: a 16-bit FADD, then the ADD (R80). -/
theorem test_decode_stream : decode [0x62, 0x14, 0x81, 0x41, 0x0A, 0x00] = .ok (.fadd16 ⟨0, 5, 3⟩, [0x81, 0x41, 0x0A, 0x00]) ∧
    decode [0x81, 0x41, 0x0A, 0x00] = .ok (.add ⟨0, 0, 5, 4, 3⟩, []) := ⟨rfl, rfl⟩
/-- The encoder writes the bytes of the worked fragment. -/
theorem test_encode : encode (.ld ⟨16, 0, 2, 0, 7, 6⟩) = [0x1B, 0x73, 0x08, 0x08] ∧ encode (.pfx ⟨0, 0, 0, 1, 0, 2⟩) = [0x7F, 0x09, 0x00, 0x00] ∧
    encode (.beq ⟨0xFF7, 2, 1⟩) = [0x95, 0x20, 0x70, 0xFF] ∧ encode (.fadd16 ⟨0, 5, 3⟩) = [0x62, 0x14] := ⟨rfl, rfl, rfl, rfl⟩

/-! ### States that tests are about -/

/-- Core 35 running at object 1, every register full, changed by `f`. -/
def run (f : Core → Core := id) : State :=
  { State.reset with cid := 35, core := f { Core.reset with phase := .run, pc := 0x0000_0100_0000_0000, rpc := 0x0000_0100_0000_0000, insn := 1 } }

/-- Core 35 with x in s4 and y in s5. -/
def two (x y : Word) : State := run fun c => (c.setS 4 x).setS 5 y

/-- Core 35 with x in s4, y in s5 and z in s6. -/
def three (x y z : Word) : State := run fun c => ((c.setS 4 x).setS 5 y).setS 6 z

/-- The own scratchpad's address of an offset (space 1). -/
def own (off : Nat) : Word := BitVec.ofNat 64 (9 * 2 ^ 60 + off)

/-- An object of one page at 0x10_0000 + 4,096 × id, with every permission and the given class. -/
def object (n cls : Nat) (s : State) : State :=
  physPutNat (physPutNat s (0x20_0000 + 64 * n) 16 (2 ^ 44 + (0x10_0000 + 4096 * n) * 2 ^ 64)) (entryAddr s n) 24
    (1 + 31 * 2 + cls * 64 + 2 ^ 32 + 2 ^ 12 * 2 ^ 64 + (0x20_0000 + 64 * n) * 2 ^ 128)

/-- An address of object n. -/
def obj (n off : Nat) : Word := BitVec.ofNat 64 (n * 2 ^ 40 + off)

/-- What answers and satisfies a decidable condition, shown by evaluation. -/
theorem answers {ε α : Type} {r : Except ε α} (p : α → Prop) [DecidablePred p]
    (h : (match r with | .ok a => decide (p a) | .error _ => false) = true) : ∃ a, r = .ok a ∧ p a := by
  match r, h with
  | .ok a, h => exact ⟨a, rfl, of_decide_eq_true h⟩

/-- A line of object 2, block 0, that L1 holds clean with every permission. -/
def line2 : Line :=
  { addr := obj 2 0, data := 0, valid := BitVec.allOnes 64, dirty := 0, tag := 0, tagValid := 0, tagDirty := 0, unc := false,
    perm := 31, cls := 0, phys := 0x10_2000, slot := none, inb := 64, aliased := false, recheck := false, low := false }

/-- Every register of `two` is full. -/
theorem full_two (x y : Word) (r : BitVec 5) : (two x y).core.Full r := by
  have h : ∀ k : BitVec 5, ((two 0 0).core.Full k) := by decide +kernel
  exact h r

/-- `two` is calm. -/
theorem calm_two (x y : Word) : (two x y).core.Calm := by
  have h : (two 0 0).core.Calm := by decide +kernel
  exact h

/-! ### The hypotheses of the statements can be met: scalars -/

/-- ScalarAlu, ImmediateAlu, ControlFlow, whatever the operands hold: so every clause on their values is reached, the division by
zero, −2^63 by −1 and the counts of 0 among them. -/
theorem test_meets_ScalarAlu (x y : Word) : (two x y).core.Calm ∧ (two x y).core.Full 4 ∧ (two x y).core.Full 5 ∧ (two x y).core.Writable 3 ∧
    (two x y).core.s 4 = x ∧ (two x y).core.s 5 = y ∧ (two x y).core.cvPos = 0 :=
  ⟨calm_two x y, full_two x y 4, full_two x y 5, ⟨full_two x y 3, rfl⟩, rfl, rfl, rfl⟩
/-- The highest and the lowest one bit at their ends, as the clauses on CLZ and CTZ name them. -/
theorem test_meets_ScalarAlu_counts : ((0x8000_0000_0000_0000 : Word).getLsbD 63 = true ∧ ∀ j, 63 < j → (0x8000_0000_0000_0000 : Word).getLsbD j = false) ∧
    (1 : Word).getLsbD 0 = true ∧ ∀ j < 0, (1 : Word).getLsbD j = false :=
  ⟨⟨rfl, fun j h => BitVec.getLsbD_of_ge _ j h⟩, rfl, fun _ h => absurd h (Nat.not_lt_zero _)⟩
/-- s0 as destination meets the same hypotheses: its write is discarded. -/
theorem test_meets_s0 (x y : Word) : (two x y).core.Writable 0 ∧ (two x y).core.setS 0 x = (two x y).core := ⟨⟨full_two x y 0, rfl⟩, rfl⟩
/-- ScalarRegisters: an empty source with t = 1 and with t = 0, an empty second source, an empty destination. -/
theorem test_meets_ScalarRegisters : (run (·.emptyS 4)).core.repAt = none ∧ (run (·.emptyS 4)).core.trEn = false ∧ ¬ (run (·.emptyS 4)).core.Full 4 ∧
    ((run (·.emptyS 5)).core.Full 4 ∧ ¬ (run (·.emptyS 5)).core.Full 5) ∧ ((run (·.emptyS 3)).core.Full 4 ∧ ¬ (run (·.emptyS 3)).core.Full 3) := by
  decide +kernel

/-! ### Memory -/

/-- ScratchpadAccess: a load at the last byte of the scratchpad; a store that ends where the system area begins; one that begins
where it ends. -/
theorem test_meets_ScratchpadAccess :
    (let s := two (own 0xFFFFF) 0; s.core.Calm ∧ s.core.Full 4 ∧ s.core.Writable 3 ∧ s.OwnScratch (s.core.s 4) 1) ∧
    (let s := two (own 0xD7FF8) 0; s.core.Calm ∧ s.core.Full 4 ∧ s.core.Full 5 ∧ s.OwnScratch (s.core.s 4) 8 ∧ Unreserved (s.core.s 4) 8) ∧
    (let s := two (own 0xE0000) 0; s.OwnScratch (s.core.s 4) 8 ∧ Unreserved (s.core.s 4) 8) := by decide +kernel
theorem test_meets_ScratchpadAccess_form (x y : Word) : (two x y).Canonical := ⟨rfl, rfl, rfl⟩
/-- HeldBackStores: a line that may be written and updated, with room for one more uncommitted line; the step word of a .upd store. -/
theorem test_meets_HeldBackStores :
    let s := run fun c => { (c.setS 4 (obj 2 56)).setS 5 7 with lines := [line2], optH := own 0 }
    s.core.Calm ∧ s.core.Full 4 ∧ s.core.Full 5 ∧ (s.core.s 4).getLsbD 63 = false ∧ (s.core.s 4).toNat % 8 = 0 ∧
    servingLine s.core (s.core.s 4) 8 .write = some line2 ∧ servingLine s.core (s.core.s 4) 8 .update = some line2 ∧ uncommitted s.core < 256 ∧
    s.core.seqTouches = false ∧ s.OwnScratch s.core.optH 4 := by decide +kernel
/-- ObjectLoads: a line that serves; a miss that translates, with no line, sector or full set in the way, the L2 slice holding
another block of the set. -/
theorem test_meets_ObjectLoads_hit :
    let s := run fun c => { c.setS 4 (obj 2 56) with lines := [line2] }
    s.core.Calm ∧ s.core.Full 4 ∧ s.core.Writable 3 ∧ (s.core.s 4).getLsbD 63 = false ∧ (s.core.s 4).toNat % 8 = 0 ∧
    servingLine s.core (s.core.s 4) 8 .read = some line2 ∧ line2.valid &&& byteMask 56 8 = byteMask 56 8 ∧ s.core.seqTouches = false := by decide +kernel
theorem test_meets_ObjectLoads_miss :
    let y : Sector := { phys := 0x10_2040, data := 0, tag := 0, valid := 0, tagValid := 0, fill := 0, epoch := 0 }
    let s := { object 2 0 (two (obj 2 56) 0) with clusters := [(2, { Cluster.reset with l2 := [y] })] }
    s.core.seqTouches = false ∧ findLine s.core (blockAddr (obj 2 56)) = none ∧ victimFor s.cid (blockAddr (obj 2 56)) s = some none ∧
    ∃ a, translate s (clusterOf s.cid) (objId (obj 2 56)) (objOff (obj 2 56)) 8 .read = .ok a ∧ (a.1.cls = 0 ∧ a.1.aliased = false ∧
      isLocalDram s a.1.phys = true ∧ blockOf a.1.phys ∉ s.ecc ∧ (∀ z ∈ (a.2.clusterAt (clusterOf s.cid)).l2, z.phys ≠ blockOf a.1.phys) ∧
      (a.2.clusterAt (clusterOf s.cid)).l2 ≠ [] ∧ l2Others (clusterOf s.cid) a.1.phys a.2 = []) :=
  ⟨by decide +kernel, by decide +kernel, by decide +kernel, answers _ (by decide +kernel)⟩
/-- ReturningAtomics, PostedAtomics: both widths; an outbox with room, and one with 16 entries. -/
theorem test_meets_Atomics :
    let s := two (own 0x100) 1
    let e : OutEntry :=
      { cargo := .hold 1 2 true, by_ := issuer s.core s.core.act, committed := false, refused := false, recheck := false, late := false }
    let u := s.now fun c => { c with outbox := List.replicate 16 e }
    s.core.Calm ∧ s.core.Settled ∧ s.core.Full 4 ∧ s.core.Full 5 ∧ s.core.Writable 3 ∧ s.OwnScratch (s.core.s 4) 8 ∧ Unreserved (s.core.s 4) 8 ∧
    s.OwnScratch (s.core.s 4) 4 ∧ s.core.outbox.length < 16 ∧ (∀ x ∈ s.core.outbox, x.posts (homeOf (s.ownPlace (s.core.s 4))) = false) ∧
    u.core.Full 4 ∧ u.core.outbox.length = 16 ∧ u.OwnBytes (s.core.s 4) 8 ∧ s.core.seqTouches = false ∧ u.core.seqTouches = false := by decide +kernel
/-- AccessFaults: a misaligned address, spaces 0 and 7 of the reserved codes, space 5 and space 6. -/
theorem test_meets_AccessFaults :
    (two (own 0x101) 0).core.Full 4 ∧ (two (own 0x101) 0).core.seqTouches = false ∧ (own 0x101).toNat % 2 ≠ 0 ∧ (0x8000_0000_0000_0000 : Word).extractLsb' 60 4 = 8 ∧
    (0xF000_0000_0000_0000 : Word).extractLsb' 60 4 = 15 ∧ (0xD000_0000_0000_0000 : Word).extractLsb' 60 4 = 13 ∧ (two 0 0).cid % 16 ≠ 15 ∧
    (0xE000_0000_0000_0000 : Word).extractLsb' 60 4 = 14 := by decide +kernel

/-- Memory of a concrete state in canonical form, by evaluation. -/
theorem canonical_of {s : State} (h : (Memory.wf s.mem && Memory.wf s.host && tagsFrom 0 s.tags) = true) : s.Canonical := by
  simpa [State.Canonical, and_assoc] using h

/-- Cores that differ neither without their lines nor in their lines are equal. -/
theorem same_core {c d : Core} (h : c.bare = d.bare) (l : c.lines = d.lines) (i : c.ilines = d.ilines) : c = d := by
  have e (c : Core) : c = { c.bare with lines := c.lines, ilines := c.ilines } := rfl
  rw [e c, e d, h, l, i]

/-! ### Regions, fences, cairns -/

/-- An entry of the outbox of core 35. -/
def entry (k : Cargo) (committed refused : Bool := false) : OutEntry :=
  { cargo := k, by_ := issuer (run).core none, committed := committed, refused := refused, recheck := false, late := false }

/-- CommitAndFences: an uncommitted line and entry; an older entry on its way; a running sequence; a refused message at the head, its
fields at their ends; fences with and without entries, a dirty line among what they write back. -/
theorem test_meets_CommitAndFences :
    (let s := run fun c => { c with lines := [{ line2 with unc := true, dirty := 1 }], outbox := [entry (.hold 1 2 true)] }
     s.core.Calm ∧ s.core.Settled ∧ s.core.trEn = false ∧ s.core.outbox ≠ [] ∧ refusedLine s.cid (fun _ => true) (s.now commitRegion) = none) ∧
    (let s := run fun c => { c with outbox := [entry (.hold 1 2 true) true] }
     s.core.committed = false ∧ s.core.trEn = false ∧ (∀ e ∈ s.core.outbox, e.refused = false) ∧
     ∃ e ∈ s.core.outbox, e.committed = true) ∧
    (let s := run fun c => { c with rep := { c.rep with state := 2 } }
     s.core.committed = false ∧ s.core.trEn = false ∧ s.core.outbox = [] ∧ s.core.rep.state = 2 ∧ s.core.repAt = none) ∧
    (let s := run fun c => { c with outbox := [entry (.msg 4095 63 [0]) true true] }
     s.core.committed = false ∧ s.core.trEn = false ∧ s.core.cvSize = 0 ∧ s.cid % 768 ≠ 15) ∧
    (let s := run fun c => { c with lines := [{ line2 with unc := true, dirty := 1 }] }
     s.core.Calm ∧ s.core.Settled ∧ refusedLine s.cid (fun _ => true) (s.now commitRegion) = none ∧ s.core.outbox = [] ∧
     ∀ t ∈ s.net, t.isFrom s.cid = false) := by decide +kernel

/-- Core 35 with the address of object 2, a cairn, in s4, the cairn's first word being `m`. -/
def cairn (f : Core → Core := id) (m : Nat := 0) : State := physPutNat (object 2 2 (run fun c => f (c.setS 4 (obj 2 0)))) 0x10_2000 8 m

/-- A slot for the cairn that `cairn` is about. -/
def slot2 : Slot := { Slot.free with valid := true, cairn := obj 2 0 }

/-- Slot 7 is free, the others name other cairns. -/
def sevenSlots (c : Core) : Core := { c with slots := Vector.ofFn fun i => if i.val = 7 then Slot.free else { slot2 with cairn := obj 3 (64 * i.val) } }

/-- Acquire: a free cairn, and the first or only the last slot free; the cairn held exclusively by another core. -/
theorem test_meets_Acquire :
    (let s := cairn
     s.core.Calm ∧ s.core.Settled ∧ s.core.Full 4 ∧ s.core.Writable 3 ∧ (obj 2 0).toNat % 64 = 0 ∧ (obj 2 0).getLsbD 63 = false ∧ (s.core.slot 0).valid = false ∧
     withdrawing s s.cid = false) ∧
    (let s := cairn sevenSlots
     (∀ i < 8, (s.core.slot i).valid = true → (s.core.slot i).cairn ≠ obj 2 0) ∧ (s.core.slot 7).valid = false ∧
     ∀ i < 7, (s.core.slot i).valid = true) := by decide +kernel
theorem test_meets_Acquire_home : cairn.Canonical ∧ (cairn (m := 2)).Canonical ∧
    (∃ a, translate cairn (clusterOf 35) (objId (obj 2 0)) (objOff (obj 2 0)) 64 .atomic = .ok a ∧
      (a.1.cls = 2 ∧ kindOf a.1.phys = 0 ∧ a.1.phys % 64 = 0 ∧ reachable cairn a.1.phys = true ∧ blockOf a.1.phys ∉ cairn.ecc ∧
        cairnMode cairn a.1.phys = 0 ∧ cairnWcnt cairn a.1.phys = 0)) ∧
    ∃ a, translate (cairn (m := 2)) (clusterOf 35) (objId (obj 2 0)) (objOff (obj 2 0)) 64 .atomic = .ok a ∧ (a.1.cls = 2 ∧ cairnMode (cairn (m := 2)) a.1.phys = 2) :=
  ⟨canonical_of (by decide +kernel), canonical_of (by decide +kernel), answers _ (by decide +kernel), answers _ (by decide +kernel)⟩

/-- HoldsOfACore: no slot; a lent slot; a local hold; a slot that nothing uses; a hold told to the home. -/
theorem test_meets_HoldsOfACore :
    slotNamed cairn.core (obj 2 0) = none ∧
    (let put (y : Slot) : State := cairn fun c => c.putSlot 7 y
     slotNamed (put slot2).core (obj 2 0) = some 7 ∧ slot2.hold = .none ∧ slot2.ret = false ∧ slot2.wait = false ∧
     (let s := put { slot2 with ret := true }
      (s.core.slot 7).hold = .none ∧ (s.core.slot 7).ret = true ∧ (s.core.slot 7).wait = false) ∧
     (let s := put { slot2 with hold := .shared, loc := true }
      (s.core.slot 7).hold ≠ .none ∧ (s.core.slot 7).loc = true ∧ (s.core.slot 7).wait = false ∧ refusedLine s.cid (fun l => l.slot = some 7) (s.now commitRegion) = none) ∧
     let s := put { slot2 with hold := .exclusive }
     (s.core.slot 7).hold = .exclusive ∧ (s.core.slot 7).loc = false ∧ s.waiters = [] ∧ refusedLine s.cid (fun l => l.slot = some 7) (s.now commitRegion) = none) := by
  decide +kernel
theorem test_meets_HoldsOfACore_home :
    let s := cairn (fun c => c.putSlot 7 { slot2 with hold := .exclusive }) 2
    ∃ a, translate s (clusterOf s.cid) (objId (obj 2 0)) (objOff (obj 2 0)) 64 .atomic = .ok a ∧ a.2.core = s.core ∧
      a.1.cls = 2 ∧ reachable s a.1.phys = true ∧ blockOf a.1.phys ∉ s.ecc ∧ kindOf a.1.phys = 0 ∧ a.1.phys % 64 = 0 ∧ cairnMode s a.1.phys = 2 := by
  intro s
  obtain ⟨a, h, p, l, i⟩ := answers (r := translate s (clusterOf s.cid) (objId (obj 2 0)) (objOff (obj 2 0)) 64 .atomic)
    (fun a => (a.1.cls = 2 ∧ reachable s a.1.phys = true ∧ blockOf a.1.phys ∉ s.ecc ∧ kindOf a.1.phys = 0 ∧ a.1.phys % 64 = 0 ∧
      cairnMode s a.1.phys = 2) ∧ a.2.core.lines = s.core.lines ∧ a.2.core.ilines = s.core.ilines) (by decide +kernel)
  exact ⟨a, h, same_core (translate_caches (P := False) h).core l i, p⟩

/-- Waits: 63 monitors registered; a monitor triggered, none, one armed; a time that has come and one that has not; an overdue copy. -/
theorem test_meets_Waits :
    (let s := { two (own 0) 0 with monitors := List.replicate 63 ⟨1, 0, false, false⟩ }
     s.core.Calm ∧ s.core.cvPos = 0 ∧ s.core.ydl = 0 ∧ s.core.seqTouches = false ∧ s.core.Full 4 ∧ s.OwnBytes (s.core.s 4) 1 ∧ s.monitors.length < 64 ∧
     ∀ m ∈ s.monitors, m.core = s.cid → m.hit = true) ∧
    (let s := { run with monitors := [⟨35, 0, false, false⟩] }
     (∀ m ∈ s.monitors, m.core = s.cid → m.hit = false) ∧ ∃ m ∈ s.monitors, m.core = s.cid) ∧
    (two 0 0).core.Full 4 ∧ (run).pkg.cyc.toNat < (1 : Word).toNat ∧ (0 : Word).toNat ≤ (run).pkg.cyc.toNat ∧ (run).core.phase = .run ∧
    (∀ q ∈ (run).core.queues.toList, ∀ p ∈ q.ops, (0 : Word).toNat < p.promise.toNat) ∧
    dueQueues (run fun c => c.putQueue 3 ⟨[{ kind := .cpy, src := 0, dst := 0, len := 1, b16 := false, promise := 0, pos := 0, entry := 0, entryPos := 0 }],
      false, 0, 0, 0⟩).core 0 ≠ 0 := by decide +kernel

/-! ### Tasks, messages, caravans, crests -/

/-- A message word: destination, channel, length. -/
def mword (dst ch len : Nat) : Word := BitVec.ofNat 64 (dst + ch * 2 ^ 12 + len * 2 ^ 18)

/-- OutboxEntries: the last 64 bytes of the scratchpad; the highest core and channel; the core itself; the host; lengths 1 and 64;
the last counter block of a scratchpad; SEND.A with a local hold. -/
theorem test_meets_OutboxEntries :
    (let s := two (own 0xFFFC0) (mword 0xBFF 63 64)
     s.core.Calm ∧ s.core.Full 4 ∧ s.core.Full 5 ∧ s.core.outbox.length < 16 ∧ s.OwnScratch (own 0xFFFC0) 1 ∧ ((own 0xFFFC0).extractLsb' 0 60).toNat + 64 ≤ 2 ^ 20 ∧
     blockOf (s.ownPlace (own 0xFFFC0) + 64 - 1) ∉ s.ecc ∧ mwLen (s.core.s 5) = 64 ∧ mwDst (s.core.s 5) < 0xC00 ∧
     (s.coreAt (mwDst (s.core.s 5))).fencedOff = false ∧ (s.core.s 5).toNat % 4096 < 0xC00) ∧
    (mwLen (mword 0xFFF 0 1) = 1 ∧ mwDst (mword 0xFFF 0 1) = 0xFFF ∧ (35 : Word).toNat % 4096 = (run).cid) ∧
    let a : Word := BitVec.ofNat 64 (0xBFF * 2 ^ 32 + 0xD7FC0)
    a.toNat % 64 = 0 ∧ a.extractLsb' 20 12 = 0 ∧ a.extractLsb' 44 20 = 0 ∧ (a.extractLsb' 32 12).toNat < 0xC00 ∧
    (a.extractLsb' 0 20).toNat < 0xD8000 ∧ ((run).coreAt (a.extractLsb' 32 12).toNat).fencedOff = false ∧ 0 < (1 : Word).toInt := by decide +kernel
/-- An outcome that goes on, shown by evaluation. -/
theorem goes_of {o : Host.Outcome State Fault Refusal} (h : (match o with | .next _ => true | _ => false) = true) : ∃ t, o = .next t := by
  match o, h with
  | .next t, _ => exact ⟨t, rfl⟩
/-- `n` bytes at an address lie at p, in one block of the own scratchpad, are readable, and wait for no posted atomic. -/
def inOwn (s : State) (a : Word) (n p : Nat) : Bool :=
  a.getLsbD 63 && (match localTarget s a n .load with | .ok t => decide (t = .sram p true a) | .error _ => false) && s.ecc.isEmpty &&
    reachable s p && !postedAhead s p && !s.core.seqTouches
/-- What `inOwn` says of the acts that check and read the bytes. -/
theorem inOwn_reads {s : State} {a : Word} {n p : Nat} (h : inOwn s a n p = true) :
    (∀ ordered, target a n .load .read 0 ordered s = .ok (.sram p true a, s)) ∧
    readTarget (.sram p true a) n 0 s = .ok ((physBytes s p n, false), s) := by
  simp only [inOwn, Bool.and_eq_true, List.isEmpty_iff, Bool.not_eq_true'] at h
  obtain ⟨⟨⟨⟨⟨h1, h2⟩, h3⟩, h4⟩, h5⟩, h6⟩ := h
  have r : readable p a s = .ok ((), s) := by simp [readable, h3, h4]
  have b : behindSram p .load s = .ok ((), s) := by simp [behindSram, h5]
  constructor
  · intro ordered
    split at h2
    · next t e => cases ordered <;> simp [target, h1, h6, e, of_decide_eq_true h2, b, Except.map]
    · cases h2
  · simp only [readTarget, bind_act, r, askS_act, pure_act, Bool.not_true]
/-- A run of bytes that is checked and read block by block, as one load, and waits for nothing. -/
structure Reads (s : State) (a : Word) (n : Nat) (bytes : List Byte) : Prop where
  pieces : readPieces a n s = .ok ((bytes, false), s)
  image : readImageAt a n s = .ok ((bytes, false), s)
  turn : orderRun a n s = .ok ((), s)
/-- A run of bytes in one block of the own scratchpad reads as its bytes. -/
theorem reads {s : State} {a : Word} {n : Nat} (p : Nat) (h : (decide (pieces a n = [(a, n)]) && inOwn s a n p) = true) :
    Reads s a n (physBytes s p n) := by
  simp only [Bool.and_eq_true, decide_eq_true_eq] at h
  obtain ⟨t, r⟩ := inOwn_reads h.2
  constructor <;> simp only [readPieces, readImageAt, orderRun, atAddr, h.1, collect, each, bind_act, boundsAt, t, r, pure_act, Target.commits] <;> simp
/-- A run of bytes in two blocks of the own scratchpad. -/
theorem reads2 {s : State} {a : Word} {n : Nat} (b : Word) (i j p q : Nat)
    (h : (decide (pieces a n = [(a, i), (b, j)]) && inOwn s a i p && inOwn s b j q) = true) :
    Reads s a n (physBytes s p i ++ physBytes s q j) := by
  simp only [Bool.and_eq_true, decide_eq_true_eq] at h
  obtain ⟨t, r⟩ := inOwn_reads h.1.2
  obtain ⟨u, v⟩ := inOwn_reads h.2
  constructor <;>
    simp only [readPieces, readImageAt, orderRun, atAddr, h.1.1, collect, each, bind_act, boundsAt, t, u, r, v, pure_act, Target.commits] <;> simp
theorem test_meets_OutboxEntries_bytes : ∃ bytes, Reads (two 0 0) (own 0xFFFC0) 32 bytes :=
  ⟨_, reads ((run).ownPlace (own 0xFFFC0)) (by decide +kernel)⟩
/-- SEND.A under a local hold of object 2, with the message in the own scratchpad. -/
def sendA : State := cairn fun c =>
  (((c.setS 4 (own 0)).setS 5 (mword 0xBFF 63 64)).setS 6 (obj 2 0)).putSlot 7 { slot2 with hold := .shared, loc := true }
theorem test_meets_OutboxEntries_sendA :
    (let s := sendA
     s.core.Calm ∧ s.core.Settled ∧ s.core.Full 4 ∧ s.core.Full 5 ∧ s.core.Full 6 ∧ s.core.outbox.length < 16 ∧ mwLen (s.core.s 5) = 64 ∧
     slotNamed s.core (s.core.s 6) = some 7 ∧ (s.core.slot 7).hold ≠ .none ∧ (s.core.slot 7).loc = true ∧ (s.core.slot 7).wait = false) ∧
    ∃ bytes, Reads sendA (own 0) 64 bytes :=
  ⟨by decide +kernel, _, reads ((run).ownPlace (own 0)) (by decide +kernel)⟩
theorem test_meets_OutboxEntries_home :
    ∃ a, translate sendA (clusterOf sendA.cid) (objId (obj 2 0)) (objOff (obj 2 0)) 64 .atomic = .ok a ∧ (a.1.cls = 2 ∧ reachable sendA a.1.phys = true ∧
      blockOf a.1.phys ∉ sendA.ecc ∧ refusedLine sendA.cid (fun l => l.slot = some 7) (a.2.now commitRegion) = none) := answers _ (by decide +kernel)

/-- An activation, entered from a record or from a message. -/
def activation (msg : Option MsgSlot := none) : Activation :=
  { epc := 0x0000_0100_0000_0000, tag := 1, lat := false, origin := 0, cb := false, msg := msg, launch := 0 }

/-- DoneAndYield: an empty register; no activation; one whose message stands in the last slot of the last core's last channel; a
deque of 255 records. -/
theorem test_meets_DoneAndYield :
    (run (·.emptyS 31)).core.sfull ≠ BitVec.allOnes 32 ∧
    (let s := run fun c => { c with act := some (activation (some ⟨3071, 63, 3⟩)) }
     s.core.Calm ∧ s.core.Settled ∧ s.core.cvSize = 0 ∧ s.core.trEn = false ∧ s.core.sfull = BitVec.allOnes 32 ∧ s.core.vfull = BitVec.allOnes 32 ∧
     ∀ n < 8, (s.core.slot n).hold = .none) ∧
    (let s := run fun c => { c.setS 4 (own 0) with act := some activation, dqBot := 260, dqTop := 5 }
     s.core.Calm ∧ s.core.Settled ∧ s.core.cvPos = 0 ∧ s.core.Full 4 ∧ (s.core.s 4).toNat % 8 = 0 ∧ s.cid % 16 < 13 ∧ s.core.vacReq = false ∧
     dequeTakes s s.cid = true ∧ s.core.sfull = BitVec.allOnes 32 ∧ s.core.vfull = BitVec.allOnes 32 ∧ ∀ n < 8, (s.core.slot n).hold = .none) := by
  decide +kernel
theorem test_meets_DoneAndYield_form (f : Core → Core) : (run f).Canonical := ⟨rfl, rfl, rfl⟩
theorem test_meets_DoneAndYield_bytes :
    let s := run fun c => { c.setS 4 (own 0) with act := some activation, dqBot := 260, dqTop := 5 }
    s.core.image = [] ∧ ∃ bytes, Reads s (own 0) 32 bytes := ⟨rfl, _, reads ((run).ownPlace (own 0)) (by decide +kernel)⟩

/-- Chbind: the last channel. -/
theorem test_meets_Chbind :
    (let s := two (own 0x30) 63
     s.core.Calm ∧ s.core.Full 4 ∧ s.core.Full 5 ∧ (s.core.s 4).toNat % 16 = 0 ∧ s.cid < 3072 ∧ s.cid % 16 ≠ 15 ∧ (s.core.s 5).toNat % 64 = 63) := by
  decide +kernel
theorem test_meets_Chbind_bytes : ∃ bytes, Reads (two (own 0x30) 63) (own 0x30) 16 bytes :=
  ⟨_, reads ((run).ownPlace (own 0x30)) (by decide +kernel)⟩

/-- Caravans: a size that is none; core 35 as the leader of two; core 39 as one of eight; core 32 with core 33 idle and not; core 40
with core 47 among its eight. -/
theorem test_meets_Caravans :
    (let s := two 3 0
     s.core.Calm ∧ s.core.Settled ∧ s.core.cvSize = 0 ∧ s.core.cvPos = 0 ∧ s.core.Writable 3 ∧ s.core.sfull = BitVec.allOnes 32 ∧
     ¬ ((s.core.s 4).toNat = 2 ∨ (s.core.s 4).toNat = 4 ∨ (s.core.s 4).toNat = 8)) ∧
    35 % 16 % 2 ≠ 0 ∧ (40 % 16 % 8 = 0 ∧ 15 < 40 % 16 + 8) ∧ (32 % 16 % 8 = 0 ∧ 32 % 16 + 8 ≤ 15) ∧
    (let s := { two 8 0 with cid := 32 }
     ∀ p, 0 < p → p < 8 → (s.coreAt (s.cid + p)).canFollow = true) ∧
    (let s := { two 8 0 with cid := 32, others := [(39, { Core.reset with phase := .run })] }
     ∃ p, 0 < p ∧ p < 8 ∧ ¬ (s.coreAt (s.cid + p)).canFollow = true) :=
  ⟨by decide +kernel, by decide, by decide, by decide, fun p h1 h2 => by
    match p, h1, h2 with
    | 1, _, _ | 2, _, _ | 3, _, _ | 4, _, _ | 5, _, _ | 6, _, _ | 7, _, _ => rfl, 7, by decide +kernel⟩

/-- A crest word: context, scope, participants. -/
def crestWord (ctx scope part : Nat) : Word := BitVec.ofNat 64 (ctx + scope * 16 + part * 64)

/-- CrestBarrier: a reserved scope; a round of two, and of one; the flag asked for, with a NaN folded and with none. -/
theorem test_meets_CrestBarrier :
    (let s := two (crestWord 15 2 2) 0
     s.core.Calm ∧ s.core.Settled ∧ s.core.Full 4 ∧ cxLegal (s.core.s 4) = true ∧
     ((crestAt s s.cid 2 15).contribute s.cid (s.core.s 4) (contribution s.core false)).complete = false) ∧
    cxLegal (crestWord 0 3 1) = false ∧
    (let s := two (crestWord 15 0 1) 0
     let x := (crestAt s s.cid 0 15).contribute s.cid (s.core.s 4) (contribution s.core false)
     cxLegal (s.core.s 4) = true ∧ x.complete = true ∧ x.nf = false) ∧
    let w := crestWord 15 0 1 ||| 1#64 <<< 21
    let s := run fun c => { c.setS 4 w with creg := 1#34 <<< 32 }
    let x := (crestAt s s.cid 0 15).contribute s.cid w (contribution s.core false)
    cxLegal w = true ∧ x.complete = true ∧ x.nf = true ∧ cxSkip x.param = true := by decide +kernel

/-! ### Control registers, traps and faults -/

/-- ControlRegisters: a register that may be written, FCSR, one read-only, one write-only, a number without a register. -/
theorem test_meets_ControlRegisters :
    ((run).core.Calm ∧ (run).core.Settled ∧ (run).core.Writable 3) ∧
    (csrExists 0x009 = true ∧ csrWriteOnly 0x009 = false ∧ csrReadOnly 0x009 = false ∧ 0x009 ∉ [0x018, 0x019, 0x070]) ∧
    (csrExists 0x008 = true ∧ csrWriteOnly 0x008 = false ∧ csrReadOnly 0x008 = false) ∧ (csrExists 0x000 = true ∧ csrReadOnly 0x000 = true) ∧
    (csrExists 0x00A = true ∧ csrWriteOnly 0x00A = true ∧ csrReadOnly 0x00A = false) ∧ csrExists 0x072 = false := by decide +kernel

/-- TrapsAndFaults: no breakpoint, the second of the two at the instruction, and a running sequence. -/
theorem test_meets_TrapsAndFaults :
    ((two 0 0).core.repAt = none ∧ (two 0 0).core.Calm ∧ (two 0 0).core.Full 4 ∧ (two 0 0).core.trEn = false ∧ (two 0 0).core.cvSize = 0 ∧
      (two 0 0).cid % 768 ≠ 15 ∧ (two 0 0).core.trBuf = []) ∧
    (let s := run fun c => { c with bppc := #v[0, 0x0000_0100_0000_0001] }
     s.core.repAt = none ∧ breakHit s.core s.serving s.core.pc = some 1 ∧ s.core.Full 4 ∧ s.core.Full 5 ∧ s.core.Writable 3 ∧ s.core.Settled ∧
     s.core.cvPos = 0 ∧ s.core.rep.state ≠ 2 ∧ s.core.VFull 0 31) ∧
    (run fun c => { c with rep := { c.rep with state := 2 } }).core.rep.state = 2 := by decide +kernel
/-! ### The vector unit -/

/-- VectorFrame: both kinds of single-register types, all lanes active, and lanes 1 to 127 only, under a prefix that zeroes. -/
theorem test_meets_VectorFrame :
    isPairTy 0 = false ∧ isPairTy 7 = isPairTy 1 ∧ (run).core.repAt = none ∧ (List.replicate 128 (2 ^ 32 - 1, noFlags)).length = 128 ∧
    (∀ r ∈ List.replicate 128 (2 ^ 32 - 1, noFlags), r.1 < 2 ^ 32) ∧ (∀ i < 128, (activeMask (run).core).getLsbD i = true) ∧
    (activeMask (run fun c => { c with pfx := some ⟨1, true, 0, false, 0⟩, masks := #v[BitVec.allOnes 128, BitVec.allOnes 128 <<< 1, 0, 0, 0, 0, 0, 0] }).core).getLsbD 0 = false := by
  decide +kernel
/-- RoundingModes: a tie on an odd and on an even quotient, and an exact one. -/
theorem test_meets_RoundingModes : 2 * (3 % 2 ^ 1) = 2 ^ 1 ∧ 2 * (10 % 2 ^ 2) = 2 ^ 2 ∧ 4 % 2 ^ 2 = 0 ∧ 0 < 1 := by decide
/-- VectorFloat, VectorInteger, VectorCompare, SixteenBitForms, Reductions, Permutes: every type, a pair at the last even register,
vb a vector and a scalar. -/
theorem test_meets_Vectors : (two 0 0).core.VectorCalm ∧ (∀ ty < 8, (two 0 0).core.VFull ty 30 ∧ (two 0 0).core.VbFull ty 0 30 ∧ (two 0 0).core.VbFull ty 1 31) ∧
    (two 0 0).core.VFull 0 31 ∧ (two 0 0).core.Writable 31 ∧ (two 0 0).core.Full 31 ∧ chosen 0 0 ((two 0 0).core.lanes 0 0) = [] ∧
    (run fun c => { c with pfx := some ⟨0, false, 5, true, 31⟩ }).core.VFull 0 31 ∧ 4 ≤ 5 ∧ 5 ≠ 6 := by
  decide +kernel
/-- Conversions: stochastic with element indices in a register. -/
theorem test_meets_Conversions :
    let s := run fun c => { c with pfx := some ⟨0, false, 5, true, 31⟩ }
    s.core.VectorCalm ∧ modeNumber s.core = 5 ∧ (prefixOf s.core).usec = true ∧ s.core.VFull 0 (prefixOf s.core).c ∧ s.core.VFull (codeTy 0) 31 ∧
    s.core.VFull (codeTy 1) 30 ∧ s.core.Full 31 := by decide +kernel
/-- VectorLoads: the last bytes of the scratchpad, consecutive and in both strides; a gather with one offset; a slice's last row. -/
theorem test_meets_VectorLoads :
    let s := two (own (2 ^ 20 - 512)) 0
    s.core.VectorCalm ∧ s.core.VFull 0 31 ∧ s.core.Full 4 ∧ s.core.Full 5 ∧
    ∀ i < 128, s.OwnScratch (s.core.s 4 + (s.core.s 5 + BitVec.ofNat 64 i) * 4) 4 := by decide +kernel
theorem test_meets_VectorLoads_stride :
    let s := two (own (2 ^ 20 - 512)) 4
    ∀ i < 128, s.OwnScratch (s.core.s 4 + BitVec.ofNat 64 i * s.core.s 5) 4 := by decide +kernel
theorem test_meets_VectorLoads_tile :
    let s := two (own (2 ^ 20 - 512)) 32
    ∀ e < 128, s.OwnScratch (s.core.s 4 + BitVec.ofNat 64 (e % 16) * s.core.s 5 + BitVec.ofNat 64 (e / 16 * 4)) 4 := by decide +kernel
theorem test_meets_VectorLoads_gather :
    let s := two (own 0) (2 ^ 20 - 8)
    s.OwnScratch (s.core.s 4 + BitVec.ofNat 64 ((s.core.s 5).toNat % 2 ^ 32)) 8 ∧ s.core.VFull 1 30 := by decide +kernel
theorem test_meets_VectorLoads_slice :
    let s := run fun c => { c with vregs := c.vregs.set 3 (Vector.replicate 128 1016) }
    s.core.vIsFull 3 = true ∧ (∀ i < 128, (VReg.nats (s.core.v 3)).getD i 0 % 8 = 0 ∧ (VReg.nats (s.core.v 3)).getD i 0 < 1024) ∧
    ∀ i < 128, ∀ w < 2, blockOf (scratch s s.cid (0xE0000 + 512 * ((VReg.nats (s.core.v 3)).getD i 0 / 4) + 4 * i + 512 * w)) ∉ s.ecc := by
  decide +kernel
/-- VectorStores: up to the system area; every lane at one place, where lane 127's element stays. -/
theorem test_meets_VectorStores :
    let s := two (own (0xD8000 - 512)) 0
    s.core.VectorCalm ∧ s.core.VFull 0 31 ∧ s.core.Full 4 ∧ s.core.Full 5 ∧
    ∀ i < 128, s.OwnScratch (s.core.s 4 + (s.core.s 5 + BitVec.ofNat 64 i) * 4) 4 ∧ Unreserved (s.core.s 4 + (s.core.s 5 + BitVec.ofNat 64 i) * 4) 4 := by
  decide +kernel
theorem test_meets_VectorStores_place :
    let s := two (own 0xE0000) 0
    ∀ i < 128, s.OwnScratch (s.core.s 4 + BitVec.ofNat 64 i * s.core.s 5) 4 ∧ Unreserved (s.core.s 4 + BitVec.ofNat 64 i * s.core.s 5) 4 := by
  decide +kernel
/-- TagsAndTables: a block, and a table of 256 entries, at the end of the general area. -/
theorem test_meets_TagsAndTables :
    (let s := two (own (0xD8000 - 64)) 0
     s.core.VectorCalm ∧ s.core.Full 4 ∧ s.core.Full 5 ∧ s.core.Writable 3 ∧ s.OwnScratch (s.core.s 4) 1 ∧ Unreserved (s.core.s 4) 1 ∧
     s.core.vIsFull 31 = true) ∧
    let s := two (own (2 ^ 20 - 1024)) 0
    (s.core.s 4).toNat % 64 = 0 ∧ ∀ k < 256, s.OwnScratch (s.core.s 4 + BitVec.ofNat 64 (4 * k)) 4 := by decide +kernel
theorem test_meets_TagsAndTables_form (x y : Word) : (two x y).Canonical := ⟨rfl, rfl, rfl⟩

/-- A core with tags on blocks of its scratchpad from offset 0 up. -/
def tagged (ts : List Tag) (x y : Word) : State :=
  { two x y with tags := (List.range ts.length).zipWith (fun k t => ((run).ownPlace (own (64 * k)), t)) ts }

/-- Quantising: a run of one block of 128 elements and of eight of 16, at the end of the general area; a full E4M3 block read back;
a packed block of 128 expanded into two. -/
theorem test_meets_Quantising :
    let s := two 0 (own (0xD8000 - 512))
    s.core.VectorCalm ∧ s.core.vIsFull 31 = true ∧ s.core.Full 5 ∧ (s.core.s 5).toNat % 64 = 0 ∧
    ∀ n ∈ [0, 17], ∀ w ∈ runOf (selectorCode n) (activeMask s.core) (VReg.nats (s.core.v 31)) (fun _ => none),
      s.OwnScratch (nthBlock (s.core.s 5) w.k) 64 ∧ Unreserved (nthBlock (s.core.s 5) w.k) 64 := by decide +kernel
theorem test_meets_Quantising_dqnt :
    let s := tagged [0x7F_7F7F_7F06, 0x7F_7F7F_7F06] (own 0) 0
    ∀ k < 2, s.OwnScratch (nthBlock (s.core.s 4) k) 64 ∧ dqntReads (formatOf (physBlock s (s.ownPlace (nthBlock (s.core.s 4) k))).tag) = true ∧
      blockCount (formatOf (physBlock s (s.ownPlace (nthBlock (s.core.s 4) k))).tag) = 64 := by decide +kernel
theorem test_meets_Quantising_unpk :
    let s := tagged [0x23] (own 0) (own (0xD8000 - 128))
    let g := formatOf (physBlock s (s.ownPlace (nthBlock (s.core.s 4) 0))).tag
    s.core.Full 4 ∧ s.OwnScratch (nthBlock (s.core.s 4) 0) 64 ∧ 0x20 ≤ g ∧ g ≤ 0x23 ∧ blockCount g / 64 = 2 ∧
    ∀ k < 2, s.OwnScratch (nthBlock (s.core.s 5) k) 64 ∧ Unreserved (nthBlock (s.core.s 5) k) 64 := by decide +kernel

/-! ### The engines -/

/-- MatrixEngine: the last tile; 4 KiB of F32 elements up to the system area; the last row; a mode word; 32 rows of I8 and of F32
under an I32 and an F32 tile; an operation at the head. -/
theorem test_meets_MatrixEngine :
    let s := two (own (0xD8000 - 4096)) 28
    s.core.VectorCalm ∧ (∀ op ∈ s.core.mops, op.tile ≠ 7) ∧ s.core.mops = [] ∧ s.core.tileFormat 7 = 0 ∧ s.core.VFull 0 31 ∧
    (s.core.s 5).toNat % 4 = 0 ∧ (s.core.s 5).toNat ≤ 28 ∧ (s.core.tileFormat 7 = 1 ↔ (0 : BitVec 3) = 1) ∧ s.core.Full 4 ∧
    (∀ k < 8, (0xAAAA : Word).extractLsb' (2 * k) 2 ≠ 3#2) ∧
    ∀ e < 1024, s.OwnScratch (s.core.s 4 + BitVec.ofNat 64 (e * 4)) 4 ∧ Unreserved (s.core.s 4 + BitVec.ofNat 64 (e * 4)) 4 := by decide +kernel
theorem test_meets_MatrixEngine_rows (f : Tag) (h : f = 0x02 ∨ f = 0x0B) :
    let s := tagged (List.replicate 32 f) (own 0) (own 0)
    let g := formatOf (physBlock s (s.ownPlace (s.core.s 4))).tag
    (∀ r < 32, s.OwnScratch (s.core.s 4 + BitVec.ofNat 64 (64 * r)) 64 ∧ formatOf (physBlock s (s.ownPlace (s.core.s 4 + BitVec.ofNat 64 (64 * r)))).tag = g) ∧
    (widthClass g).isSome = true ∧ (widthClass g).map accumulator = some (if f = 0x02 then 0 else 2) := by
  obtain rfl | rfl := h <;> decide +kernel
theorem test_meets_MatrixEngine_op :
    let op : MmaOp := { tile := 7, a := List.replicate 32 ⟨0, 0x0B⟩, b := List.replicate 32 ⟨0, 0x0B⟩, sa := oneF32, sb := oneF32, isat := true }
    op.tile < 8 ∧ op.a.length = 32 ∧ op.b.length = 32 := by decide
/-! ### Copies and repetition -/

/-- A descriptor of a copy at offset 0 of the own scratchpad, which s4 names. -/
def descriptor (src dst n : Nat) : State :=
  physPutNat (two (own 0) 0) ((run).ownPlace (own 0)) 32 (9 * 2 ^ 60 + src + (9 * 2 ^ 60 + dst) * 2 ^ 64 + n * 2 ^ 128)

/-- A copy in a queue. -/
def copyOp (src dst len : Nat) : CopyOp :=
  { kind := .cpy, src := own src, dst := own dst, len := len, b16 := false, promise := 9, pos := 0, entry := 0, entryPos := 0 }

/-- Copies: the longest copy, into the last byte of the general area and out of the last byte of the scratchpad; an aligned one; one
entry of a list; a full queue and one of 15. -/
theorem test_meets_Copies :
    let s := descriptor 0xFFFFF 0xD7FFF (2 ^ 40)
    let a := s.core.s 4
    let p := s.ownPlace a
    s.core.Calm ∧ s.core.Settled ∧ s.core.Begins ∧ s.core.trEn = false ∧ s.core.Full 4 ∧ s.core.Writable 3 ∧ s.OwnScratch a 32 ∧ s.OwnScratch (physWord s p) 1 ∧
    s.OwnScratch (physWord s (p + 8)) 1 ∧ Unreserved (physWord s (p + 8)) 1 ∧ physNat s (p + 16) 8 % 2 ^ 41 = 2 ^ 40 ∧
    (s.core.queue 3).ops.length < 16 := by decide +kernel
theorem test_meets_Copies_list :
    let s := physPutNat (descriptor 0x100 0x200 1) ((run).ownPlace (own 0x100)) 16 (9 * 2 ^ 60 + 0xFFFFF + 2 ^ 40 * 2 ^ 64)
    let src := physWord s (s.ownPlace (s.core.s 4))
    src.toNat % 16 = 0 ∧ s.OwnScratch src 16 ∧ physNat s (s.ownPlace (s.core.s 4) + 16) 8 % 2 ^ 13 = 1 ∧
    s.OwnScratch (physWord s (s.ownPlace src)) 1 ∧ physNat s (s.ownPlace src + 8) 8 % 2 ^ 41 = 2 ^ 40 := by decide +kernel
theorem test_meets_Copies_queues :
    let q (k : Nat) : CopyQueue := ⟨List.replicate k (copyOp 0 0x1000 64), false, 0, 0, 0⟩
    let s := run fun c => c.putQueue 3 (q 16)
    16 ≤ (s.core.queue 3).ops.length ∧ (s.core.queue 0).ops = [] ∧ (∃ n < 4, (8 : BitVec 4).getLsbD n = true ∧ (s.core.queue n).ops ≠ []) ∧
    ∀ n < 4, (7 : BitVec 4).getLsbD n = true → (s.core.queue n).ops = [] := by decide +kernel
theorem test_meets_Copies_chunk :
    let x := copyOp 0 (0xD8000 - 4096) 4096
    let s := run fun c => c.putQueue 3 ⟨[x], false, 0, 0, 0⟩
    (s.core.queue 3).ops = [x] ∧ x.kind = .cpy ∧ x.pos = 0 ∧ 0 < x.len ∧ x.len ≤ 4096 ∧ s.OwnScratch x.src 1 ∧ s.OwnScratch x.dst 1 ∧ s.ecc = [] ∧
    (x.src.extractLsb' 0 60).toNat + x.len ≤ 2 ^ 20 ∧ (x.dst.extractLsb' 0 60).toNat + x.len ≤ 0xD8000 ∧ x.src.toNat + x.len ≤ x.dst.toNat := by
  decide +kernel
/-- Sums of B16 and of F32 elements that end at the end of the scratchpad. -/
theorem test_meets_Copies_sums (b : Bool) :
    let x := { copyOp (2 ^ 20 - 4096) 0 4096 with kind := .cpya, b16 := b }
    let s := run fun c => c.putQueue 3 ⟨[x], false, 0, 0, 0⟩
    let w := if b then 2 else 4
    (s.core.queue 3).ops = [x] ∧ x.kind = .cpya ∧ x.b16 = b ∧ x.pos = 0 ∧ s.OwnScratch x.src 1 ∧ s.OwnScratch x.dst 1 ∧ s.ecc = [] ∧
    x.src.toNat % w = 0 ∧ x.dst.toNat % w = 0 ∧ x.len % w = 0 ∧ (x.src.extractLsb' 0 60).toNat + x.len ≤ 2 ^ 20 ∧ x.dst.toNat + x.len ≤ x.src.toNat := by
  cases b <;> decide +kernel
/-- A list of two entries, of 4,095 bytes and of one. -/
def gathering : State :=
  physPutNat (run fun c => c.putQueue 3 ⟨[{ copyOp 0 (0xD8000 - 4096) 2 with kind := .cpyg }], false, 0, 0, 0⟩) ((run).ownPlace (own 0)) 32
    (9 * 2 ^ 60 + 0x1000 + 4095 * 2 ^ 64 + (9 * 2 ^ 60 + 2 ^ 20 - 1) * 2 ^ 128 + 2 ^ 192)
theorem test_meets_Copies_gather :
    let s := gathering
    let x := { copyOp 0 (0xD8000 - 4096) 2 with kind := .cpyg }
    (s.core.queue 3).ops = [x] ∧ x.pos = 0 ∧ x.entry = 0 ∧ x.entryPos = 0 ∧ s.OwnScratch x.src 1 ∧ s.OwnScratch x.dst 1 ∧ s.ecc = [] ∧
    (x.dst.extractLsb' 0 60).toNat + 4096 ≤ 0xD8000 ∧ x.src.toNat + 32 ≤ x.dst.toNat := by decide +kernel
theorem test_meets_Copies_gather_entries :
    let s := gathering
    ∀ i < 2, let e := s.ownPlace (own 0 + BitVec.ofNat 64 (16 * i))
      let a := physWord s e
      let len := physNat s (e + 8) 8 % 2 ^ 41
      s.OwnScratch (own 0 + BitVec.ofNat 64 (16 * i)) 16 ∧ s.OwnScratch a 1 ∧ len = (if i = 0 then 4095 else 1) ∧
      (a.extractLsb' 0 60).toNat + len ≤ 2 ^ 20 ∧ (a.toNat + len ≤ (own (0xD8000 - 4096)).toNat ∨ (own 0xD8000).toNat ≤ a.toNat) := by decide +kernel
theorem test_meets_Copies_gather_form : gathering.Canonical := canonical_of (by decide +kernel)
theorem test_meets_Copies_form (f : Core → Core) : (run f).Canonical := ⟨rfl, rfl, rfl⟩

/-- IADD v3, v4, v5 captured. -/
def iadd : Captured := ⟨0x0000_0100_0000_0000, none, 1, some (.iadd ⟨4, 0, 0, 5, 4, 3⟩)⟩

/-- Repetition: 65,535 iterations over a window of all 32 registers in steps of 31; none; a register outside the footprint and the
destination in it. -/
theorem test_meets_Repetition :
    (let s := run fun c => { (c.setS 4 65535).setS 5 (BitVec.ofNat 64 (32 * 32 + 31 * 2 ^ 11)) with rep := { c.rep with state := 1, n := 1, cap := [iadd] } }
     let w := s.core.s 5
     s.core.Calm ∧ s.core.rep.state ≠ 2 ∧ s.core.rep.state ≠ 3 ∧ s.core.rep.state ≠ 0 ∧ s.core.Full 4 ∧ s.core.Full 5 ∧ s.core.rep.n ≤ s.core.rep.cap.length ∧
     (s.core.s 4).toNat ≤ 65535 ∧ (w.extractLsb' 0 5).toNat + (w.extractLsb' 5 6).toNat ≤ 32 ∧ (w.extractLsb' 11 5).toNat < (w.extractLsb' 5 6).toNat ∧
     (∀ f ∈ (s.core.rep.load (s.core.s 4).toNat w).footprint, s.core.footFull f = true) ∧ (∀ f ∈ s.core.rep.footprint, s.core.footFull f = true) ∧
     s.core.s 4 ≠ 0) ∧
    let s := run fun c => { c with rep := { state := 2, cap := [iadd], n := 1, base := 0, size := 0, stag := 0, count := 2, iter := 0, pos := 0, fcsr := 0, after := 0,
                                            footprint := [⟨true, 3, (0, 0), (1, 0)⟩] }, vfull := bitClear c.vfull 3 }
    s.core.pfx = none ∧ s.core.repAt = none ∧ s.core.rep.cap[0]? = some iadd ∧ s.core.vIsFull 4 = true ∧ s.core.vIsFull 5 = true ∧
    ∃ f ∈ s.core.rep.footprint, f.vector = true ∧ f.reg = 3 := by decide +kernel
/-- Core 35 at a prefix and the word after it. -/
def pair (w : Nat) : State := (run).withFetchWord 64 (0x7F + w * 2 ^ 32)

/-- The state after the fetch of a pair's second word, with the pair in issue, where its operands of a type are full. -/
def PairReady (ty : Nat) (vb va vd : BitVec 5) (w : BitVec 32) (a : BitVec 32 × State) : Prop :=
  let c := { a.2.core with insn := a.1, pfx := some ⟨7, true, 4, true, 2⟩ }
  a.1 = w ∧ mayFollow a.1 = true ∧ Core.VectorCalm c ∧ Core.VFull c ty va ∧ Core.VFull c ty vd ∧ Core.VbFull c ty 0 vb
deriving Decidable

/-- PrefixAndHint: a prefix before the codes of IADD v3, v4, v5 and FADD v1, v2, v3, and before a word that may not follow. -/
theorem test_meets_PrefixAndHint : (∃ a, fetchInsn ((pair 0x040A41AB).core.pc + 4) (pair 0x040A41AB) = .ok a ∧ PairReady 4 5 4 3 0x040A41AB a) ∧
    ∃ a, fetchInsn ((pair 0x000620A9).core.pc + 4) (pair 0x000620A9) = .ok a ∧ PairReady 0 3 2 1 0x000620A9 a :=
  ⟨answers _ (by decide +kernel), answers _ (by decide +kernel)⟩
theorem test_meets_PrefixAndHint_not : ∃ a, fetchInsn ((pair 0x41).core.pc + 4) (pair 0x41) = .ok a ∧ mayFollow a.1 = false :=
  answers _ (by decide +kernel)
theorem test_meets_PrefixAndHint_word : decode32 0x040A41AB = .ok (.iadd ⟨4, 0, 0, 5, 4, 3⟩) ∧
    decode32 0x000620A9 = .ok (.fadd ⟨0, 0, 0, 3, 2, 1⟩) ∧ (Instr.fadd ⟨0, 0, 0, 3, 2, 1⟩).illegalUnder ⟨0, 1, 2, 4, 1, 7⟩ = false ∧
    (Instr.iadd ⟨4, 0, 0, 5, 4, 3⟩).illegalUnder ⟨0, 1, 2, 4, 1, 7⟩ = false ∧ (0x75 : BitVec 32).getLsbD 0 = true ∧
    0x38 ≤ (majorOf 0x77).toNat ∧ (majorOf 0x77).toNat ≤ 0x3B := ⟨rfl, rfl, rfl, rfl, rfl, by decide, by decide⟩

/-! ### Sequences, experts, updates -/

/-- Core 35 with a sequence 31, and x and y in s4 and s5. -/
def sequence (q : Seq) (x y : Word) : State := putSeq 31 q (two x y)

/-- A sequence of 8 tokens, full. -/
def fullSeq : Seq := { Seq.zero with v := true, len := 8, cap := 8, hv := 8 }

/-- The descriptor of a sequence of 8 tokens, all of them given, at offset 0 of the own scratchpad. -/
def seqDescriptor (y : Word) : State :=
  physPutNat (two (own 0) y) ((run).ownPlace (own 0)) 28 (8 + 8 * 2 ^ 32 + 8 * 2 ^ 192)

/-- SequenceRecords: a descriptor accepted and one whose capacity is 0; a valid slot to clear; the last word of a record. -/
theorem test_meets_SequenceRecords :
    (let s := seqDescriptor 31
     s.core.Calm ∧ s.core.VectorCalm ∧ s.core.Settled ∧ s.cid < 3072 ∧ s.core.Full 4 ∧ s.core.Full 5 ∧ s.core.Writable 3 ∧ (s.core.s 4).toNat % 8 = 0 ∧
     let bytes := physBytes s (s.ownPlace (own 0)) 64
     leValue ((bytes.drop 4).take 4) = 8 ∧ leValue ((bytes.drop 0).take 4) = 8 ∧ leValue ((bytes.drop 0x18).take 4) % 16 = 8) ∧
    leValue (((physBytes (two (own 0) 0) ((run).ownPlace (own 0)) 64).drop 4).take 4) = 0 ∧
    (let s := sequence fullSeq (BitVec.ofNat 64 (31 + 3 * 256)) 55
     (seqAt s 31).v = true ∧ (s.core.s 4).toNat % 32 = 31 ∧ (s.core.s 4).toNat / 256 % 4 = 3 ∧ s.ecc = [] ∧ (s.core.s 5).toNat ≤ 55) := by decide +kernel
theorem test_meets_SequenceRecords_bytes : (∃ bytes, Reads (seqDescriptor 31) (own 0) 64 bytes) ∧
    (seqDescriptor 31).Canonical ∧ (sequence fullSeq 0 0).Canonical :=
  ⟨⟨_, reads ((run).ownPlace (own 0)) (by decide +kernel)⟩, canonical_of (by decide +kernel), canonical_of (by decide +kernel)⟩

/-- A state with an uncorrectable error in the last block of the record of sequence 31. -/
def spoilt31 (s : State) : State := { s with ecc := [blockOf (scratch s 35 0xDBFFF)] }
/-- The record of sequence 31 read and taken, and not. -/
theorem test_meets_SequenceRecords_record :
    SeqSound (seqDescriptor 31) 31 ∧ SeqSound (sequence fullSeq (BitVec.ofNat 64 (31 + 3 * 256)) 55) 31 ∧
    (match readSeq 31 (spoilt31 (seqDescriptor 31)) with | .error _ => true | .ok _ => false) = true ∧
    (match takesSeq 31 (spoilt31 (seqDescriptor 31)) with | .error _ => true | .ok _ => false) = true := by decide +kernel
theorem test_meets_SequenceRecords_sound {s : State} (h : SeqSound s 31) : readSeq 31 s = .ok ((), s) ∧ takesSeq 31 s = .ok ((), s) :=
  ⟨readSeq_sound h, takesSeq_sound h⟩

/-- The first word of a watch slot at offset 0, for slot 3 of sequence 31. -/
def watch (ctl : Nat) : State := physPutNat (sequence fullSeq (own 0) (BitVec.ofNat 64 (31 + 3 * 256))) ((run).ownPlace (own 0)) 4 ctl

/-- WSET: a pattern of eight tokens that stops, a budget, a slot of kind 3; the bytes of its descriptor. -/
theorem test_meets_SequenceRecords_wset :
    (let s := watch (1 + 3 * 4 + 8 * 32)
     s.core.Calm ∧ s.core.Settled ∧ s.core.Full 4 ∧ s.core.Full 5 ∧ s.core.Writable 3 ∧ (seqAt s 31).v = true ∧ (seqAt s 31).ninj = 0 ∧
     let ctl := leValue (physBytes s (s.ownPlace (own 0)) 4)
     ctl % 4 = 1 ∧ ctl / 32 % 16 = 8 ∧ ctl / 4 % 4 ≠ 2) ∧
    2 % 4 = 2 ∧ 2 / 4 % 4 = 0 ∧ 3 % 4 = 3 := by decide +kernel
theorem test_meets_SequenceRecords_wset_bytes : ∃ bytes, Reads (watch 1) (own 0) 72 bytes :=
  ⟨_, reads2 (own 64) 64 8 ((run).ownPlace (own 0)) ((run).ownPlace (own 64)) (by decide +kernel)⟩
theorem test_meets_SequenceRecords_wset_record : ∀ ctl ∈ [0, 1, 2 ^ 12], SeqSound (watch ctl) 31 := by decide +kernel

/-- Core 35 with a sequence 0, which every lane of `two` names, and a token that traps and does not stop it. -/
def trapping (f : Core → Core := id) : State :=
  putSeq 0 { fullSeq with cap := 64, slots := [{ Watch.empty with kind := 1, trap := true, plen := 1 }, Watch.empty, Watch.empty, Watch.empty] } (run f)
theorem test_meets_Tokens_traps :
    let info := [{ packetOf { cause := 0x0B } (run) with flags := 0 }]
    let r (s : State) := performLanes (activeMask s.core) (fun i q x t => commitLane q (x % 2 ^ 24) i 0 {} t)
      ((List.range 128).zip ((VReg.nats (s.core.v 4)).zip (VReg.nats (s.core.v 5)))) { tab := (List.range 32).map (seqAt s), note := s.core.wnote, traps := [] }
    (trapping).core.VectorCalm ∧ (trapping).core.Settled ∧ (trapping).core.Begins ∧ infoWaits (trapping).core = false ∧
    infoWaits (trapping fun c => { c with packets := info }).core = true ∧ (trapping).core.trEn = false ∧ (r (trapping)).2.traps ≠ [] ∧
    ∀ ps ∈ [[], info], (trapping fun c => { c with trapsDue := some ps }).core.Calm ∧ (trapping fun c => { c with trapsDue := some ps }).core.trapsDue = some ps := by
  decide +kernel

/-- The records that a TCOMMIT of `trapping` reads: that of sequence 0, sound and not. -/
theorem test_meets_Tokens_reads :
    let f : Nat → Nat → Nat → TokWork → LaneCode × TokWork := fun i q x t => commitLane q (x % 2 ^ 24) i 0 {} t
    let s := trapping
    (tokWork f (s.core.v 4) (s.core.v 5) s).2.used.eraseDups = [0] ∧ SeqSound s 0 ∧
    (match readSeq 0 { s with ecc := [blockOf (seqAddr s 0)] } with | .error _ => true | .ok _ => false) = true := by decide +kernel

/-- Tokens: a sequence not valid, a stopped one, a full one, one with eight drafts, one with seven. -/
theorem test_meets_Tokens :
    ((two 0 0).core.VectorCalm ∧ (two 0 0).core.Settled ∧ (two 0 0).core.Begins ∧ infoWaits (two 0 0).core = false ∧ (two 0 0).core.trEn = false ∧
     ∀ r < 32, (two 0 0).core.vIsFull r = true) ∧
    infoWaits (run fun c => { c with packets := [{ packetOf { cause := 0x0B } (run) with flags := 0 }] }).core = true ∧
    (let t (q : Seq) : TokWork := { tab := List.replicate 32 q, note := 0, traps := [] }
     (t Seq.zero).tab.length = 32 ∧ ((t Seq.zero).seq 31).v = false ∧ ((t { fullSeq with stop := true }).seq 31).stop = true ∧
     ((t fullSeq).seq 31).cap ≤ ((t fullSeq).seq 31).len ∧ 8 ≤ ((t { fullSeq with ndraft := 8 }).seq 31).ndraft ∧
     ((t { fullSeq with ndraft := 7 }).seq 31).ndraft < 8 ∧ ((t { fullSeq with ndraft := 7 }).seq 31).d.length = 8 ∧
     ((t { fullSeq with len := 7 }).seq 31).len < ((t { fullSeq with len := 7 }).seq 31).cap ∧ ∀ n < 4, (((t fullSeq).seq 31).slot n).kindNow = 0) := by
  decide +kernel
/-- Expert 5, valid, owned by core 35, its slots filled by `f`; the join area in object 2 where `len` is given. -/
def expert (f : State → State := id) (hash len : Nat := 0) (s : State := two 5 0) : State :=
  roster 5 (f (physPutNat s (expertAddr s 5) 48 (1 + 2 * hash + 35 * 2 ^ 16 + 7 * 2 ^ 64 + (obj 2 0).toNat * 2 ^ 256 + len * 2 ^ 320)))

/-- ExpertRouting: the longest count; an expert not valid, one without slots, one with slots 0 and 15 routable, by load, slot 15 the
least, and by hash; an answer. -/
theorem test_meets_ExpertRouting :
    let s := two 5 (2 ^ 32 - 1)
    s.core.Calm ∧ s.core.Settled ∧ s.core.Full 4 ∧ s.core.Full 5 ∧ s.core.Writable 3 ∧ s.core.s 5 ≠ 0 ∧ (s.core.s 5).toNat < 2 ^ 32 := by decide +kernel
/-- Slots 0 and 15 are routable, slot 0 with one outstanding. -/
def routes (s : State) : State := setReplica 15 15 ⟨1, 2, 4, 7, 0, 0⟩ (setReplica 5 15 ⟨9, 2, 4, 7, 0, 0⟩ (setReplica 5 0 ⟨9, 2, 3, 7, 0, 1⟩ s))
theorem test_meets_ExpertRouting_home :
    let e : Transit := .expert 35 5 (.route 3 1)
    (let s := { two 0 0 with net := [e] }
     s.net[0]? = some e ∧ xValid s 5 = false ∧ kindOf (expertAddr s 5) = 0 ∧ expertAddr s 5 % 1024 = 0) ∧
    (xValid expert 5 = true ∧ routable expert 5 = []) ∧
    (xValid (expert routes) 5 = true ∧ xGrow (expert routes) 5 = 0 ∧ xHash (expert routes) 5 = false ∧ 15 ∈ routable (expert routes) 5 ∧
     ∀ k ∈ routable (expert routes) 5, (replica (expert routes) 5 15).outst.toNat < (replica (expert routes) 5 k).outst.toNat ∨
       ((replica (expert routes) 5 15).outst = (replica (expert routes) 5 k).outst ∧ 15 ≤ k)) ∧
    (xHash (expert routes 1) 5 = true ∧ xGrow (expert routes 1) 5 = 0 ∧
     ∃ j < 16, (routable (expert routes 1) 5)[philox 0 3 5 0 0 % (routable (expert routes 1) 5).length]? = some j) ∧
    let s := { run with net := [.expertAnswer 35 7], core := { (run).core with exroute := some (31, 0x0000_0100_0000_0004) } }
    s.net[0]? = some (.expertAnswer s.cid 7) ∧ s.core.exroute = some (31, 0x0000_0100_0000_0004) := by decide +kernel
theorem test_meets_ExpertRouting_form : (two 5 0).Canonical ∧ (expert routes).Canonical ∧ expert.Canonical ∧ (expert routes 1).Canonical :=
  ⟨⟨rfl, rfl, rfl⟩, canonical_of (by decide +kernel), canonical_of (by decide +kernel), canonical_of (by decide +kernel)⟩

/-- ExpertOwners: the owner's slot 15 spawning and active; another core; slot 15 the lowest empty one, for a weight object of the
expert; a roster all joined. -/
theorem test_meets_ExpertOwners :
    (let w : Word := 5 + 15 * 2 ^ 16
     let s := expert (fun s => setReplica 5 15 ⟨9, 1, 4, 0, 0, 0⟩ s) 0 0 (two w 0)
     s.core.Calm ∧ s.core.Settled ∧ s.core.Full 4 ∧ s.core.Writable 3 ∧ xValid s 5 = true ∧ xOwner s 5 = s.cid ∧ (replica s 5 15).state = 1 ∧
     s.core.lines = [] ∧ expertAhead 5 s = false ∧ (s.core.s 4).extractLsb' 0 16 = 5 ∧ (s.core.s 4).extractLsb' 16 4 = 15 ∧ xJoined s 5 = xJroster s 5 ∧
     (∀ k < 16, (replica s 5 k).outst = 0) ∧ xShrink s 5 = 0) ∧
    (let s := { expert with cid := 36 }
     xValid s 5 = true ∧ xOwner s 5 ≠ s.cid ∧ s.core.trEn = false ∧ s.core.cvSize = 0 ∧ s.cid % 768 ≠ 15) ∧
    (let s := expert (fun s => (List.range 15).foldl (fun s k => setReplica 5 k ⟨9, 2, 4, 7, 0, 0⟩ s) s) 0 0
       (physPutNat (object 2 16 (two 5 (BitVec.ofNat 64 (0xBFF + 2 * 2 ^ 12)))) (entryAddr (run) 2 + 32) 2 5)
     let b := s.core.s 5
     (b.extractLsb' 0 12).toNat < 0xC00 ∧ (s.coreAt (b.extractLsb' 0 12).toNat).fencedOff = false ∧ (readEntry s (b.extractLsb' 12 23).toNat).v = true ∧
     (readEntry s (b.extractLsb' 12 23).toNat).xrep = true ∧ (readEntry s (b.extractLsb' 12 23).toNat).xname = 5 ∧ (replica s 5 15).state = 0 ∧
     ∀ k < 15, (replica s 5 k).state ≠ 0) ∧
    (let b := (expert id 0 0 (two 5 0xBFF)).core.s 5
     (b.extractLsb' 12 23).toNat = 0 ∧ (b.extractLsb' 0 12).toNat < 0xC00 ∧ ((run).coreAt 0xBFF).fencedOff = false ∧ ((0xC00 : Word).extractLsb' 0 12).toNat = 0xC00) ∧
    (let s := expert (fun s => (List.range 16).foldl (fun s k => setReplica 5 k ⟨9, 2, 4, 7, 0, 0⟩ s) s)
     ∀ k < 16, (replica s 5 k).state ≠ 0) := by decide +kernel
theorem test_meets_ExpertOwners_lines (m : Nat) (h : m ≠ 35) : ((two 5 0).coreAt m).lines = [] := by
  show (if m = 35 then _ else _ : Core).lines = []
  rw [if_neg h]
  rfl
/-- EXJOIN and EXJOIN.F with a partial of 64 bytes for slot 15 of the join area in object 2. -/
def joining (state : Nat) : State :=
  expert (fun s => setReplica 5 15 ⟨9, state, 4, 7, 1, 1⟩ s) 0 64 (object 2 0 (two (BitVec.ofNat 64 (5 + 15 * 2 ^ 16 + 2 ^ 20)) (own 0xFFFC0)))
theorem test_meets_ExpertOwners_join (state : Nat) (h : state = 2 ∨ state = 3) :
    let s := joining state
    let w := s.core.s 4
    let dst := xJobj s 5 + BitVec.ofNat 64 (xPlen s 5 * 15)
    s.core.Calm ∧ s.core.Settled ∧ s.core.Full 4 ∧ s.core.Full 5 ∧ w.extractLsb' 0 16 = 5 ∧ w.extractLsb' 16 4 = 15 ∧ xValid s 5 = true ∧
    (replica s 5 15).state = state ∧ (replica s 5 15).outst = (w.extractLsb' 20 32).setWidth 64 ∧ s.core.lines = [] ∧
    (xJoined s 5).getLsbD 15 = false ∧ joinAreaOk s 5 = true ∧ xPlen s 5 = 64 ∧ s.OwnScratch (s.core.s 5) 64 ∧ s.ecc = [] ∧
    dst.getLsbD 63 = false ∧ dst.toNat % 64 = 0 := by
  obtain rfl | rfl := h <;> decide +kernel
theorem test_meets_ExpertOwners_place : (joining 2).Canonical ∧ (joining 3).Canonical ∧
    ∃ y, walk (joining 2) 2 (64 * 15) 64 .write = .ok y ∧
      (isLocalDram (joining 2) y.phys = true ∧ y.phys % 64 = 0 ∧ isHeader (joining 2) y.phys = false ∧ expertAddr (joining 2) 5 + 1024 ≤ y.phys) :=
  ⟨canonical_of (by decide +kernel), canonical_of (by decide +kernel), answers _ (by decide +kernel)⟩

/-- A group descriptor at offset 0: parameters, gradients, moments, maxima and staging, and hyperparameters at 0xC000. -/
def group (flag : Bool) : State :=
  let s := physPutNat (run fun c => { (c.setS 4 (own 0)).setS 5 1 with optH := own 0xC000 }) ((run).ownPlace (own 0)) 48
    ((own 0x1000).toNat + (own 0x3000).toNat * 2 ^ 64 + (own 0x5000).toNat * 2 ^ 128 + (own 0x5800).toNat * 2 ^ 192 + (own 0x6000).toNat * 2 ^ 256 +
      (own 0x7000).toNat * 2 ^ 320)
  { s with pkg := { s.pkg with skipFlag := flag, skipStep := 1 } }

/-- Optimizer: a step with its skip flag set and without, on ranges that lie apart. -/
theorem test_meets_Optimizer (flag : Bool) :
    let s := group flag
    let own (a : Word) (n : Nat) : Prop := a.extractLsb' 60 4 = 9 ∧ a.toNat % 8 = 0 ∧ (a.extractLsb' 0 60).toNat + n ≤ 0xD8000
    let d (k : Nat) : Word := physWord s (s.ownPlace (s.core.s 4) + 8 * k)
    let apart (a : Word) (n : Nat) (b : Word) (m : Nat) : Prop := a.toNat + n ≤ b.toNat ∨ b.toNat + m ≤ a.toNat
    (s.core.Calm ∧ s.core.Settled ∧ s.core.Full 4 ∧ s.core.Full 5 ∧ s.ecc = [] ∧ s.core.lines = [] ∧ s.cid < 3072 ∧ s.core.image = [] ∧ s.OwnTurn ∧
      ∀ e ∈ s.core.outbox, e.posts (homeOf (scratch s s.cid 0)) = false) ∧
    (own (s.core.s 4) 64 ∧ (∀ k < 6, (d k).toNat % 64 = 0) ∧ own (d 0) 8192 ∧ own (d 1) 8192 ∧ own (d 2) 2048 ∧ own (d 3) 2048 ∧ own (d 4) 8 ∧
      own (d 5) 16448 ∧ own s.core.optH 64) ∧
    (apart (d 0) 8192 (d 5) 16448 ∧ apart (d 2) 2048 (d 3) 2048 ∧ apart (d 2) 2048 (d 4) 8 ∧ apart (d 3) 2048 (d 4) 8) ∧
    (s.pkg.skipFlag = flag ∧ s.pkg.skipStep = (s.core.s 5).extractLsb' 0 32) := by
  cases flag <;> decide +kernel
theorem test_meets_Optimizer_form : (group true).Canonical ∧ (group false).Canonical := ⟨canonical_of (by decide +kernel), canonical_of (by decide +kernel)⟩
/-! ### Steps of other agents -/

/-- Bits 63:0 of a channel's entry put: V, LAT, HOLD, READY from bit 0, DEPTH at 4, PEND at 8, HEAD at 11, USED at 13. -/
def channel (k ch w : Nat) (s : State) : State := physPutNat s (scratch s k (0xD8000 + 16 * ch + 8)) 8 w

/-- Packets under way, with core 3,071 changed by `f`. -/
def under (net : List Transit) (f : Core → Core := id) : State := { run with net := net, others := [(3071, f Core.reset)] }

/-- Who issued what arrives. -/
def from1 : Issuer := { pc := 0, insn := 0, tag := 0, epc := 0, actNo := 0 }

/-- Arrivals: a message to the last channel of the last core, its last buffer slot free and six messages pending; a channel not
valid; refusals for a running core, an idle one and one that waits; HOLD and READY. -/
theorem test_meets_Arrivals :
    (let m : Transit := .msg 1 1 3071 63 (List.replicate 64 7) none from1
     let s := channel 3071 63 (1 + 3 * 16 + 6 * 256 + 7 * 2 ^ 13) (under [m])
     let w := chWord s 3071 63
     packetAt s 0 = some m ∧ chV w = true ∧ (chUsed w).getLsbD 3 = false ∧ (∀ i < 3, (chUsed w).getLsbD i = true) ∧ chPend w < 7 ∧
     (∀ m ∈ (s.coreAt 3071).buffered, ¬ (m.ch = 63 ∧ m.slot = 3)) ∧ chV (chWord (under [m]) 3071 63) = false) ∧
    (let e := entry (.msg 1 2 [0]) true true
     packetAt (under [.msgRefused 35 e]) 0 = some (.msgRefused 35 e) ∧ packetAt (under [.decRefused 35 e]) 0 = some (.decRefused 35 e) ∧
     ((under []).coreAt 35).phase ≠ .idle ∧
     (let f := under [.msgRefused 3071 e] fun c => { c with phase := .frozen, frozenEntry := true, outbox := [e] }
      packetAt f 0 = some (.msgRefused 3071 e) ∧ (f.coreAt 3071).phase = .frozen ∧ (f.coreAt 3071).frozenEntry = true ∧ (f.coreAt 3071).outbox = [e] ∧ e.refused = true) ∧
     ((under []).coreAt 35).frozenEntry = false ∧ ((under []).coreAt 3071).phase = .idle ∧ ((under []).coreAt 3071).cvSize = 0 ∧
     packetAt (under [.msgRefused 3071 e]) 0 = some (.msgRefused 3071 e) ∧
     ((under [] fun c => { c with phase := .wait (.crest 2 15) }).coreAt 3071).phase = .wait (.crest 2 15) ∧
     packetAt (under [.decRefused 3071 (entry (.dec (own 0) 0 1))]) 0 = some (.decRefused 3071 (entry (.dec (own 0) 0 1)))) ∧
    packetAt (under [.hold 1 3071 63 true]) 0 = some (.hold 1 3071 63 true) ∧ packetAt (under [.ready 1 3071 63 true]) 0 = some (.ready 1 3071 63 true) := by
  decide +kernel
/-- A push to a deque of 256 records and of 255; a deferred push; a decrement to 0 and below 0 of a block that names its home, and of
one that names another. -/
theorem test_meets_Arrivals_pushes :
    (let p (o : BitVec 3) : Transit := .push 35 3071 ⟨0, 0, 0, 0⟩ (Carried.plain o)
     let s (o : BitVec 3) (n : Nat) : State := under [p o] fun c => { c with dqBot := n }
     packetAt (s 1 256) 0 = some (p 1) ∧ 256 ≤ ((s 1 256).coreAt 3071).dqBot - ((s 1 256).coreAt 3071).dqTop ∧
     ((s 1 255).coreAt 3071).dqBot - ((s 1 255).coreAt 3071).dqTop < 256 ∧ dequeTakes (s 1 255) 3071 = false ∧
     packetAt (s 5 255) 0 = some (p 5) ∧ dequeTakes (s 5 255) 3071 = true ∧ dequeTakes (s 5 256) 3071 = false) ∧
    dequeTakes (under [] fun c => { c with pushBuf := [⟨0, 0, 0, 0⟩] }) 3071 = true ∧
    ((under [] fun c => { c with pushBuf := [⟨0, 0, 0, 0⟩] }).coreAt 3071).pushBuf = [⟨0, 0, 0, 0⟩] ∧
    ∀ v ∈ [0, 1], ∀ h ∈ [0, 3071],
      let ea : Word := BitVec.ofNat 64 (3071 * 2 ^ 32 + 0xD7FC0)
      let p := scratch (run) 3071 0xD7FC0
      let s := physPutNat (under [.dec 35 ea p 1 from1]) p 42 (v + h * 2 ^ 320)
      packetAt s 0 = some (.dec 35 ea p 1 from1) ∧ (ea.extractLsb' 32 12).toNat = 3071 ∧ physNat s (p + 40) 2 % 2 ^ 12 = h ∧
      physWord s p = BitVec.ofNat 64 v ∧ (s.coreAt 3071).pushBuf = [] ∧ dequeTakes s 3071 = true := by decide +kernel
theorem test_meets_Arrivals_form (ts : List Transit) : (under ts).Canonical := ⟨rfl, rfl, rfl⟩

/-- PacketsLeaving: the head of each kind, a full and an open channel, an atomic at the end of a scratchpad, data for a register, a
packet with and without a channel for it. -/
theorem test_meets_PacketsLeaving :
    (let s (k : Cargo) : State := under [] fun c => { c with outbox := [entry k true] }
     (∀ k ∈ [Cargo.msg 35 63 [0], .hold 35 63 true, .ready 35 63 true, .amo .cas 8 (own 0) ((run).ownPlace (own 0)) 1, .dec 0 0 1,
        .push 35 ⟨0, 0, 0, 0⟩ (Carried.plain 1)], ((s k).coreAt 3071).outbox = [entry k true] ∧ (entry k true).refused = false) ∧
     channelFull (channel 35 63 1 (s (.msg 35 63 [0]))) 35 63 = false ∧ channelFull (channel 35 63 (1 + 2 ^ 13) (s (.msg 35 63 [0]))) 35 63 = true ∧
     dequeTakes (s (.push 35 ⟨0, 0, 0, 0⟩ (Carried.plain 1))) 35 = true ∧ (own 0).getLsbD 63 = true) ∧
    (let p := (run).ownPlace (own 0xFFFF8)
     let s := under [.amo 35 .cas 8 p 1]
     packetAt s 0 = some (.amo 35 .cas 8 p 1) ∧ kindOf p = 1 ∧ packageOf p = s.pkg.pkgid.toNat ∧ p % 8 = 0 ∧ blockOf p ∉ s.ecc) ∧
    (let s := run fun c => { c with inflight := [⟨some (31, 7), []⟩] }
     (s.coreAt 35).inflight[0]? = some ⟨some (31, 7), []⟩) ∧
    let q := packetOf { cause := 0x0B } (run)
    let s := run fun c => { c with packets := [q] }
    (s.coreAt 35).packets = [q] ∧ 35 % 16 ≠ 15 ∧ takesMessage s 47 63 = false ∧ takesMessage (channel 47 63 1 s) 47 63 = true := by decide +kernel

/-- CairnHome: requests of core 3,071 for a free cairn and for one held exclusively; a surrender of a core without a slot; a
release; a withdrawal; a retry. -/
theorem test_meets_CairnHome :
    let c := obj 2 0
    let s (m : Nat) (ts : List Transit) : State := { cairn (m := m) with net := ts }
    (kindOf 0x10_2000 = 0 ∧ 0x10_2000 % 64 = 0 ∧ reachable (s 0 []) 0x10_2000 = true) ∧
    (packetAt (s 0 [.acquire c 0x10_2000 ⟨3071, none⟩ true false]) 0 = some (.acquire c 0x10_2000 ⟨3071, none⟩ true false) ∧
      cairnMode (s 0 []) 0x10_2000 = 0 ∧ cairnWcnt (s 0 []) 0x10_2000 = 0 ∧ cairnMode (s 2 []) 0x10_2000 = 2 ∧ (s 2 []).waiters = []) ∧
    (packetAt (s 1 [.surrender c 0x10_2000 35 ⟨3071, none⟩ false false]) 0 = some (.surrender c 0x10_2000 35 ⟨3071, none⟩ false false) ∧
      slotNamed ((s 1 []).coreAt 35) c = none) ∧
    (let t : Transit := .acquire c 0x10_2000 ⟨3071, some (63, 3)⟩ false false
     packetAt { s 0 [t] with ecc := [0x10_2000] } 0 = some t ∧ blockOf 0x10_2000 ∈ { s 0 [t] with ecc := [0x10_2000] }.ecc) ∧
    (packetAt (s 2 [.release c 0x10_2000 3071 true 9]) 0 = some (.release c 0x10_2000 3071 true 9) ∧ blockOf 0x10_2000 ∉ (s 2 []).ecc) ∧
    (let u := { s 2 [.withdraw c 0x10_2000 3071] with waiters := [⟨c, 0x10_2000, ⟨3071, none⟩, true⟩] }
     u.net = [.withdraw c 0x10_2000 3071] ∧ u.waiters = [⟨c, 0x10_2000, ⟨3071, none⟩, true⟩]) ∧
    let u := cairn fun d => { d with phase := .wait (.acquire c true false 0 7) }
    (u.coreAt 35).phase = .wait (.acquire c true false 0 7) ∧ u.net = [] ∧ u.waiters = [] ∧ cairnPhys u c = some 0x10_2000 := by decide +kernel

/-- WaitsEnding: each wait with what ends it; the contribution that opens a round of two, and the one that completes it. -/
theorem test_meets_WaitsEnding :
    let s (w : Wait) (ts : List Transit) : State := { run fun c => { c with phase := .wait w } with net := ts, monitors := [⟨35, 0, true, false⟩] }
    ((s .mwait []).core.Calm ∧ (s .mwait []).core.trEn = false ∧ (s (.sleep 0) []).core.phase = .wait (.sleep 0) ∧ (0 : Word).toNat ≤ (s .mwait []).pkg.cyc.toNat ∧
      (s .mwait []).core.phase = .wait .mwait ∧ (∀ m ∈ (s .mwait []).monitors, m.core = (s .mwait []).cid → m.hit = true) ∧
      (s (.waitt 0 true 0) []).core.phase = .wait (.waitt 0 true 0) ∧ ∀ q ∈ (s .mwait []).core.queues.toList, ∀ o ∈ q.ops, 0 < o.promise.toNat) ∧
    (let g : Transit := .grant (obj 2 0) 0x10_2000 35 0 9
     withdrawing (s (.acquire (obj 2 0) true true 31 7) [g]) 35 = false ∧ packetAt (s (.acquire (obj 2 0) true true 31 7) [g]) 0 = some g ∧ (s (.acquire (obj 2 0) true true 31 7) [g]).core.phase = .wait (.acquire (obj 2 0) true true 31 7)) ∧
    packetAt (s .mwait [.grant (obj 2 0) 0x10_2000 35 1 0]) 0 = some (.grant (obj 2 0) 0x10_2000 35 1 0) ∧
    packetAt (s (.crest 2 15) [.crsc 35 2 15 0xFF true]) 0 = some (.crsc 35 2 15 0xFF true) ∧
    (let c : Transit := .crest 3071 2 15 (crestWord 15 2 2) 0 false false
     packetAt (s .mwait [c]) 0 = some c ∧ (∀ scope < 3, (crestAt (s .mwait [c]) 3071 scope 15).isOpen = false) ∧ (2 ≠ 0 ∨ 15 ≠ 14) ∧
     1 ≠ ((crestWord 15 2 2 &&& ~~~ 0x3F#64).extractLsb' 6 12).toNat ∧ 1 = ((crestWord 15 2 1 &&& ~~~ 0x3F#64).extractLsb' 6 12).toNat) ∧
    (let m : Buffered := { ch := 63, slot := 3, sender := 1, len := 1, cairn := some (obj 2 0), asked := true, grant := none, started := false }
     let u := channel 35 63 (1 + 8 + 256 + 3 * 2 ^ 11) (run fun c => { c with buffered := [m] })
     let w := chWord u 35 63
     chV w = true ∧ chReady w = true ∧ chHold w = false ∧ 0 < chPend w ∧ chHead w = 3 ∧ bufferedAt (u.coreAt 35) 63 3 = some m) ∧
    (let u := run fun c => { c with buffered := [{ ch := 63, slot := 3, sender := 1, len := 1, cairn := some (obj 2 0), asked := true, grant := none, started := false }] }
     packetAt { u with net := [.msgGrant (obj 2 0) 35 63 3 9] } 0 = some (.msgGrant (obj 2 0) 35 63 3 9) ∧ ∃ m ∈ (u.coreAt 35).buffered, m.ch = 63 ∧ m.slot = 3 ∧ m.started = false) := by
  decide +kernel
/-- Core 35 at a boundary, in a cluster that steals from nobody. -/
def choosing (f : Core → Core := id) : State :=
  { run fun c => f { c with phase := .boundary } with clusters := [(2, { Cluster.reset with defsteal := 0 })] }

/-- Choice: no work; one record, at the last place of the deque's storage; one message, in the last slot of the last channel; a core
to steal from; a deadline that has passed. -/
theorem test_meets_Choice :
    (let s := choosing
     s.core.phase = .boundary ∧ s.core.exroute = none ∧ s.core.stopReq = false ∧ (∀ e ∈ s.core.outbox, e.refused = false) ∧ s.core.vacReq = false ∧
     s.core.vac = false ∧ s.core.trEn = false ∧ s.pkg.launches = [] ∧ (∀ ch < 64, eligible s s.cid ch = false) ∧ s.core.dqBot = s.core.dqTop ∧
     (s.clusterAt (clusterOf s.cid)).defsteal = 0) ∧
    (let s := choosing fun c => { c with dqTop := 255, dqBot := 256 }
     s.core.dqBot = s.core.dqTop + 1 ∧ (dqCarried s.core s.core.dqTop).holds = []) ∧
    (let m : Buffered := { ch := 63, slot := 3, sender := 1, len := 64, cairn := none, asked := false, grant := none, started := false }
     let s := channel 35 63 (1 + 8 + 3 * 16 + 256 + 3 * 2 ^ 11 + 8 * 2 ^ 13) (choosing fun c => { c with buffered := [m] })
     s.cid < 3072 ∧ eligible s s.cid 63 = true ∧ (∀ c < 64, c ≠ 63 → eligible s s.cid c = false) ∧
     bufferedAt s.core 63 (chHead (chWord s s.cid 63)) = some m ∧ m.grant = none) ∧
    (let s := { run fun c => { c with phase := .idle } with others := [(36, { Core.reset with dqBot := 1 })] }
     let v := s.cid / 16 * 16 + (s.cid + 1) % 16
     s.core.phase = .idle ∧ (∀ ch < 64, eligible s s.cid ch = false) ∧ (s.clusterAt (clusterOf s.cid)).defsteal ≠ 0 ∧ v = 36 ∧ (s.coreAt v).vac = false ∧
     (s.coreAt v).dqBot = (s.coreAt v).dqTop + 1 ∧ (dqRecord s v (s.coreAt v).dqTop).lat = false ∧ (dqCarried (s.coreAt v) (s.coreAt v).dqTop).holds = []) ∧
    let s := run fun c => { c with act := some activation, ydl := 1 }
    let u := { s with pkg := { s.pkg with cyc := 1 } }
    u.core.phase = .run ∧ u.core.act = some activation ∧ activation.msg = none ∧ u.core.ydl ≠ 0 ∧ u.core.ydl.toNat ≤ u.pkg.cyc.toNat ∧ u.core.exroute = none ∧ u.core.committed = false ∧
    u.core.spared = false ∧ u.core.closing = none ∧ u.core.cvPos = 0 ∧ u.core.cvSize = 0 ∧ u.core.inflight = [] ∧ u.core.rep.state = 0 ∧ (∀ n < 8, (u.core.slot n).valid = false) ∧
    dequeTakes u (homeCore u u.cid) = true := by decide +kernel
theorem test_meets_Choice_form : (channel 35 63 0x13F19 choosing).Canonical ∧ (run).Canonical := ⟨canonical_of (by decide +kernel), ⟨rfl, rfl, rfl⟩⟩

/-- A launch record: entry 2, a FLAT range of one dimension of n, cores 3,071 alone, its arguments in object 2, its stamp. -/
def launch (n stamp : Nat) : List Byte :=
  leBytes 64 (2 + 16 * 2 ^ 64 + n * 2 ^ 128 + (3071 + 2 ^ 12 + 0xFFFF * 2 ^ 24) * 2 ^ 192 + (obj 2 0).toNat * 2 ^ 256 + stamp * 2 ^ 320)

/-- Queue 15 with its records, and 5 as the word that the stamp is compared with. -/
def queue15 (records : List (List Byte)) (reads : Nat := 0) (held : Bool := false) (word : Nat := 5) (freed passed : Bool := false) : State :=
  let s := physPutNat (object 2 0 (run)) 0x10_2000 4 word
  { s with pkg := { s.pkg with cyc := 1680, bootReady := true, launchQueues := s.pkg.launchQueues.set 15 ⟨records, reads, 0, held, 0, freed, passed⟩ } }

/-- Launches: a queue of 15 records and of 16; a bad record, one whose stamp cannot be read, differs, matches, with and without a
breakpoint; the fifteenth and the sixteenth read; a held record, with a full launch table and without; one let go. -/
theorem test_meets_Launches :
    (let s := queue15 []
     s.pkg.bootReady = true ∧ s.deferred = [] ∧ (launchQueue s 15).freed = false ∧ (launch 1 5).length = 64 ∧ s.pkg.launches = [] ∧ (∀ m ∈ s.pkg.services, m.1 ≠ 2) ∧
     (launchQueue (queue15 (List.replicate 15 (launch 1 5))) 15).records.length < 16 ∧ 16 ≤ (launchQueue (queue15 (List.replicate 16 (launch 1 5))) 15).records.length) ∧
    (let s := queue15 [launch 0 5]
     (launchQueue s 15).records = [launch 0 5] ∧ (launchQueue s 15).held = false ∧ (launchQueue s 15).reads = 0 ∧ badRecord s (launch 0 5) = true) ∧
    (let s := queue15 [launch 1 5]
     badRecord s (launch 1 5) = false ∧ readStamp s (launch 1 5) = some (lrStamp (launch 1 5)) ∧ launchBreak s 15 (launch 1 5) = none ∧ lrSeed (launch 1 5) = false ∧
     launchBreak { s with pkg := { s.pkg with lbreaks := s.pkg.lbreaks.set 3 ⟨3, 0x38000⟩ } } 15 (launch 1 5) = some 3 ∧
     readStamp { s with mem := [] } (launch 1 5) = none) ∧
    (let s := queue15 [launch 1 5] 14 false 4
     readStamp s (launch 1 5) = some 4 ∧ 4 ≠ lrStamp (launch 1 5) ∧ 0 < (launchQueue s 15).reads ∧ (launchQueue s 15).reads < 15) ∧
    (let s := queue15 [launch 1 5] 15 false 4
     15 ≤ (launchQueue s 15).reads ∧ 112 * (launchQueue s 15).reads ≤ (s.pkg.cyc - (launchQueue s 15).first).toNat) ∧
    (launchQueue (queue15 [launch 1 5] 1 true) 15).held = true ∧ (launchQueue (queue15 [launch 1 5] 1 false 5 true) 15).freed = true ∧
    (let s := queue15 [launch 1 5] 1 true
     let full : List Launch := (List.range 64).map fun n => { number := n, record := [], slots := [], members := 0, seed := none }
     canDispatch { s with pkg := { s.pkg with launches := full } } (launch 1 5) = false) := by decide +kernel
/-- Launches: a record that has passed its checks, with room, at a breakpoint enabled since, and with a full launch table. -/
theorem test_meets_Launches_passed :
    let s := queue15 [launch 1 5] 0 false 5 false true
    let x := launchQueue s 15
    let full : List Launch := (List.range 64).map fun n => { number := n, record := [], slots := [⟨35, 0, 0⟩], members := 1, seed := none }
    let u := retireLaunches (pushSeeds { s with pkg := { s.pkg with launches := full } })
    x.held = false ∧ x.freed = false ∧ x.passed = true ∧ launchBreak s 15 (launch 1 5) = none ∧ s.pkg.launches = [] ∧
    launchBreak { s with pkg := { s.pkg with lbreaks := s.pkg.lbreaks.set 3 ⟨3, 0x38000⟩ } } 15 (launch 1 5) = some 3 ∧
    reportWaits u 15 = false ∧ launchBreak u 15 (launch 1 5) = none ∧ canDispatch u (launch 1 5) = false := by decide +kernel
/-- A SEED launch onto core 3,071, fresh, let go and held, with room in its deque and with none. -/
theorem test_meets_Launches_seed :
    let r := leBytes 64 (leValue (launch 1 5) + 2 ^ 64)
    lrSeed r = true ∧ r.length = 64 ∧ ∀ held freed : Bool, let s := queue15 [r] 0 held 5 freed
      let full : Core := { Core.reset with dqBot := 256 }
      badRecord s r = false ∧ readStamp s r = some (lrStamp r) ∧ launchBreak s 15 r = none ∧ (coreSet s r).headD 0 = 3071 ∧ s.pkg.launches = [] ∧
      (∀ m ∈ s.pkg.services, m.1 ≠ 2) ∧ dequeTakes s 3071 = true ∧ dequeTakes { s with others := [(3071, full)] } 3071 = false := by decide +kernel
theorem test_meets_Launches_form (records : List (List Byte)) (held freed : Bool) : (queue15 records 0 held 5 freed).Canonical := by
  have h : (queue15 []).Canonical := canonical_of (by decide +kernel)
  exact h

/-- SupervisorCommands: a core running, frozen in its activation, with an instruction committed and without, idle, stopped, at a boundary with a stop asked for; a mode word with
a reserved format and one without; a context open and closed. -/
theorem test_meets_SupervisorCommands :
    ((run).core.trEn = false ∧ (run).core.phase ≠ .frozen ∧ (run).core.phase ≠ .stopped ∧ (run).core.phase ≠ .idle ∧ (run).core.trBuf = []) ∧
    (let c := (run fun c => { c with phase := .frozen, act := some activation, frozenCause := 1 }).core
     c.phase = .frozen ∧ c.act = some activation ∧ c.frozenWait = none ∧ c.ydl = 0 ∧ c.cvPos = 0 ∧ c.cvSize = 0 ∧ c.inflight = [] ∧ c.rep.state = 0 ∧
     c.exroute = none ∧ c.frozenEntry = false ∧ c.committed = false ∧ ∀ n < 8, (c.slot n).hold = .none) ∧
    (let c := (run fun c => { c with phase := .frozen, act := some activation, frozenCause := 1, committed := true, noAbort := true }).core
     c.phase = .frozen ∧ c.act = some activation ∧ c.frozenWait = none ∧ c.ydl = 0 ∧ c.cvPos = 0 ∧ c.cvSize = 0 ∧ c.inflight = [] ∧ c.rep.state = 0 ∧
     c.exroute = none ∧ c.frozenEntry = false ∧ c.committed = true ∧ c.noAbort = true) ∧
    (let e := entry (.msg 1 2 [0]) true true
     let c := (run fun c => { c with phase := .frozen, act := some activation, frozenEntry := true, outbox := [e] }).core
     c.frozenEntry = true ∧ c.committed = false ∧ c.outbox = [e] ∧ e.refused = true ∧ c.actNo = e.by_.actNo ∧ c.actNo ≠ ({ e with by_ := { e.by_ with actNo := c.actNo + 1 } }).by_.actNo) ∧
    (State.reset.core.phase = .idle ∧ (choosing fun c => { c with stopReq := true }).core.phase = .boundary ∧ (choosing fun c => { c with stopReq := true }).core.stopReq = true) ∧
    ((∃ n < 8, (0xC000 : Word).extractLsb' (2 * n) 2 = 3#2) ∧ ∀ n < 8, (0x1AAAA : Word).extractLsb' (2 * n) 2 ≠ 3#2) ∧
    (let s := run
     (s.pkg.crests.toList.getD 15 Crest.idle).isOpen = false ∧
     ({ s with pkg := { s.pkg with crests := s.pkg.crests.set 15 { Crest.idle with isOpen := true, parties := [1, 2] } } }.pkg.crests.toList.getD 15 Crest.idle).isOpen = true) := by
  decide +kernel

/-- A line of object 2 with its first byte written. -/
def dirty2 : Line := { line2 with dirty := 1, data := 7 }

/-- MappingsAndVacates: a mapped address and one that is not; a committed dirty line; every commander free and busy; a launch of two
slots; a deque full and one short of it; a park entry; a core that hands over. -/
theorem test_meets_MappingsAndVacates :
    ((obj 2 0).getLsbD 63 = false ∧ (match walk (object 2 0 (run)) 2 0 1 .read with | .ok _ => true | .error _ => false) = true ∧
      (match walk (run) 2 0 1 .read with | .ok _ => true | .error _ => false) = false) ∧
    (let s := run fun c => { c with lines := [dirty2] }
     s.others = [] ∧ s.core.lines = [dirty2] ∧ dirty2.unc = false ∧ dirty2.dirty ≠ 0 ∧ dirty2.addr = blockAddr (obj 2 5) ∧ isLocalDram s dirty2.phys = true ∧
     dirty2.phys % 64 = 0 ∧ dirty2.phys ∉ s.ecc ∧ blockOf (0x10_203F : Word).toNat = dirty2.phys) ∧
    (∀ u < 5, ∀ b : Bool, let s := run
      let t := { s with commanders := Vector.replicate 5 { Commander.reset with sdbusy := b, xtbusy := b, pvbusy := b } }
      (t.commander u).sdbusy = b ∧ (t.commander u).xtbusy = b ∧ (t.commander u).pvbusy = b ∧ kindOf (entryAddr t 0) = 0 ∧ entryAddr t 0 % 64 = 0 ∧
      accessesDone t (t.commander u).shot = true ∧ (t.commander u).shot.kept = [] ∧
      accessesDone { t with net := [.amo 0 .add 8 0 0] } (t.commander u).shot = false) ∧
    (let l : Launch := { number := 0, record := launch 1 5, slots := [⟨0, 0, 0⟩, ⟨3070, 0, 0⟩], members := 2, seed := none }
     let s := { run with commanders := Vector.replicate 5 { Commander.reset with pvcount := 1 } }
     let t := { s with pkg := { s.pkg with launches := [l] } }
     l.number = (t.commander 4).pvlaunch.toNat ∧ (t.commander 4).pvbusy = false ∧ lrLat l.record = false ∧ lrSeed l.record = false ∧ 3070 % 16 ≠ 15 ∧
     (t.commander 4).pvcount ≠ 0 ∧ (t.coreAt 0).vacReq = false) := by decide +kernel
theorem test_meets_MappingsAndVacates_queues :
    (let s := under [] fun c => { c with dqBot := 255, park := c.park.set 15 (some ⟨[], none⟩) }
     191 < 192 ∧ 16 * 191 + 15 = 3071 ∧ dequeTakes s 3071 = true ∧ parkAt s 3071 15 = some ⟨[], none⟩ ∧ parkAt s 3071 0 = none ∧
     (s.coreAt 3071).phase = .idle) ∧
    dequeTakes (under [] fun c => { c with dqBot := 256 }) 3071 = false ∧
    (let s := run fun c => { c with vacReq := true, phase := .boundary }
     s.core.vacReq = true ∧ s.core.phase = .boundary ∧ s.core.lines = [] ∧ (∀ n < 8, (s.core.slot n).valid = false) ∧ s.core.dqBot = s.core.dqTop ∧
     s.pkg.launches = [] ∧ s.core.trEn = false ∧ ∀ u < 5, (s.commander u).pvbusy = false) := by decide +kernel
/-- PackageAndHost: the governor on, with demand above and below the band; every answer to a delegated request. -/
theorem test_meets_PackageAndHost :
    (∀ r ∈ [none, some 1, some 2], let x : Right := { Right.none with busy := r, v := true, perm := 15, first := 0, count := 3072, drqAddr := 0xBFF_0F_FFF8 }
      let s := { run with pkg := { Package.reset with rights := [(1023, x)] } }
      s.deferred = [] ∧ rightAt s 1023 = x ∧ requestResult x true = 0 ∧ x.drqAddr.toNat / 2 ^ 24 < 0xC00 ∧ x.drqAddr.toNat % 2 ^ 24 + 8 ≤ 2 ^ 20 ∧
      ({ x with drqGen := 1 }).drqGen ≠ x.gen.setWidth 64) ∧
    (Deferral.isHost (.skipf 0) = true ∧ (run).pkg.bootImage = 0 ∧ ({ (run).pkg with bootImage := 3 }).bootImage ≠ 0 ∧ ((849 : Word) - (run).pkg.pgFrom).toNat < 850 ∧ 850 ≤ ((850 : Word) - (run).pkg.pgFrom).toNat ∧ (run).pkg.pgEn = false ∧ (run).pkg.portLocked = false ∧ (run).pkg.linkUp = true) := by decide +kernel
/-- Reads of a device-bias page whose block L1 holds dirty, and a flip of that page to host bias. -/
theorem test_meets_PackageAndHost_bias :
    let s := { run fun c => { c with lines := [{ dirty2 with unc := false }] } with pkg := { Package.reset with bfpage := 0x102, bfbias := true } }
    let l := { dirty2 with unc := false }
    (0x10_2000 : Word).toNat / 4096 ∉ s.pkg.hostBias ∧ s.pkg.bfbusy = false ∧ s.others = [] ∧ s.core.lines = [l] ∧ l.dirty ≠ 0 ∧
    l.phys = blockOf (hdmPhys s 0x10_2000) ∧ isLocalDram s l.phys = true ∧ l.phys ∉ s.ecc ∧ s.pkg.bfbias = true ∧ s.pkg.bfpage.toNat ∉ s.pkg.hostBias ∧
    l.phys / 4096 = hdmPhys s (s.pkg.bfpage.toNat * 4096) / 4096 ∧ l.phys % 64 = 0 := by decide +kernel
/-- Host messages of 64 bytes to the last core, and refused ones; a full and an open channel; a service message with room and none;
the last bytes of device memory; a page of host bias, and a flip in progress. -/
theorem test_meets_PackageAndHost_messages :
    (let s := { run with pkg := { Package.reset with bootReady := true, hostMsgs := List.replicate 15 (0, []) } }
     s.pkg.bootReady = true ∧ mwLen (mword 0xBFF 0 64) = 64 ∧ mwDst (mword 0xBFF 0 64) < 0xC00 ∧ s.pkg.hostMsgs.length < 16 ∧ mwLen (mword 0xBFF 0 0) = 0 ∧
     64 < mwLen (mword 0xBFF 0 65) ∧ 0xC00 ≤ mwDst (mword 0xC00 0 1) ∧ s.pkg.hmstat ≠ BitVec.allOnes 32) ∧
    (let s := { run with pkg := { Package.reset with hostMsgs := [(mword 35 63 1, [0])], services := [(5, List.replicate 64 0)] } }
     channelFull s 35 63 = false ∧ channelFull (channel 35 63 (1 + 2 ^ 13) s) 35 63 = true ∧ hqRoom s (List.replicate 64 0) = false ∧
     hqRoom { s with pkg := { s.pkg with hqen := true } } (List.replicate 64 0) = true) ∧
    let a : Word := BitVec.ofNat 64 (3072 * 2 ^ 28 - 64)
    let s := { run with pkg := { Package.reset with hostBias := [a.toNat / 4096], bfbusy := true, bfat := BitVec.ofNat 28 (a.toNat / 4096), linkUp := false } }
    (a.toNat < 3072 * 2 ^ 28 ∧ 3072 * 2 ^ 28 ≤ (a + 64).toNat ∧ a.toNat / 4096 ∈ s.pkg.hostBias ∧ a.toNat % 64 + 64 ≤ 64 ∧ blockOf (hdmPhys s a.toNat) ∉ s.ecc) ∧
    (s.pkg.bfbusy = true ∧ a.toNat / 4096 = s.pkg.bfat.toNat ∧ s.pkg.heldReads = [] ∧ s.pkg.linkUp = false ∧ (run).pkg.bfbusy = false ∧ (run).pkg.bfbias = false) := by decide +kernel

/-- A message for the last channel of the last core of this package. -/
def remote (sent : Bool) : RemoteMsg := { pkg := 0, dst := 3071, ch := 63, bytes := [0], sent := sent, due := 0 }

/-- ErgAndTrace: the longest message to the last package; a flit whose channel is not valid, full, open; a sample, and a full trace
buffer with and without a ring. -/
theorem test_meets_ErgAndTrace :
    (let s := run fun c => { c with emdst := BitVec.ofNat 64 (575 + 0xBFF * 2 ^ 10 + 63 * 2 ^ 22 + 64 * 2 ^ 28), emsrc := own 0xFFFC0 }
     s.core.Calm ∧ s.core.Settled ∧ s.core.phase = .run ∧ s.core.emBuf = [] ∧ (remote true).due.toNat ≤ s.pkg.cyc.toNat ∧ s.pkg.unreachable = [] ∧ s.ecc = [] ∧ emLen s.core.emdst = 64 ∧
     emPkg s.core.emdst = 575 ∧ emCore s.core.emdst = 0xBFF ∧ s.OwnScratch s.core.emsrc 1 ∧ (s.core.emsrc.extractLsb' 0 60).toNat + 64 ≤ 2 ^ 20) ∧
    (let s := { run fun c => { c with emBuf := [remote true] } with net := [.flit 35 (remote true)] }
     (s.coreAt 35).emBuf = [remote true] ∧ s.net[0]? = some (.flit 35 (remote true)) ∧ (remote true).pkg = s.pkg.pkgid.toNat ∧ (remote false).sent = false ∧
     remote true ∉ [remote false] ∧ chV (chWord s 3071 63) = false ∧ chV (chWord (channel 3071 63 1 s) 3071 63) = true ∧
     channelFull (channel 3071 63 (1 + 2 ^ 13) s) 3071 63 = true ∧ channelFull (channel 3071 63 1 s) 3071 63 = false ∧
     (∀ b ∈ (s.coreAt 3071).buffered, b.ch ≠ 63) ∧ s.others = [] ∧ (∀ u ∈ s.pkg.unreachable, u.1 ≠ 575) ∧ 575 ≠ s.pkg.pkgid.toNat) ∧
    (let s := { run with pkg := { Package.reset with unreachable := [(575, ⟨0, 7⟩)] } }
     575 < 2 ^ 10 ∧ assocGet s.pkg.unreachable 575 = some { drops := 0, since := 7 }) ∧
    (let s := { run fun c => { c with trEn := true, trState := 1, smpint := 1024, trOff := 4096 - 64, act := some activation } with
                pkg := { Package.reset with cyc := 0x3F_FFFF } }
     let c := s.core
     c.trEn = true ∧ c.trState ≠ 0 ∧ c.smpint ≠ 0 ∧ max 1024 c.smpint.toNat ≤ (s.pkg.cyc - c.smpFrom).toNat ∧ c.trDate.toNat ≤ s.pkg.cyc.toNat ∧ (s.pkg.cyc - c.trDate).toNat ≤ 0x3F_FFFF ∧
     c.trBuf = [] ∧ c.trOff.toNat % 64 = 0 ∧ c.trOff.toNat + 64 ≤ 2 ^ (c.trSize.toNat + 12) ∧ c.act = some activation) := by decide +kernel
theorem test_meets_ErgAndTrace_flush :
    let s := object 2 0 (run fun c => { c with trBuf := List.replicate 64 7, trObj := 2, trOff := 64 })
    let off := (s.core.trOff.toNat + 4096 - s.core.trBuf.length) % 4096
    s.core.trBuf ≠ [] ∧ off = 0 ∧
    (∃ x, walk s s.core.trObj.toNat off s.core.trBuf.length .write = .ok x ∧ (x.phys % 64 + s.core.trBuf.length ≤ 64 ∧ isLocalDram s x.phys = true ∧
      isHeader s (blockOf x.phys) = false ∧ blockOf x.phys ∉ s.ecc ∧ mergeRefused { s with ecc := [blockOf x.phys] } (blockOf x.phys) (byteMask (x.phys % 64) 32) 0 = true)) ∧
    (match walk { s with mem := [] } s.core.trObj.toNat off s.core.trBuf.length .write with | .ok _ => false | .error _ => true) = true :=
  ⟨by decide +kernel, by decide +kernel, answers _ (by decide +kernel), by decide +kernel⟩

/-! ### The machine as a whole -/

/-- Core 35 about to run ADD s3, s4, s5. -/
def adds : State := (two 7 8).withFetchWord 32 0x000A4181
/-- MemoryStaysCanonical: a step from a state in canonical form. -/
theorem test_meets_MemoryStaysCanonical : adds.Canonical ∧ ∃ t, step adds = .next t :=
  ⟨canonical_of (by decide +kernel), goes_of (by decide +kernel)⟩
/-- DecodeEncode: instructions of one and of two halfwords. -/
theorem test_meets_DecodeEncode :
    (WellFormed (.add ⟨0, 0, 31, 31, 31⟩) ∧ (Instr.add ⟨0, 0, 31, 31, 31⟩).isEvent = false) ∧ (WellFormed (.fadd16 ⟨1, 31, 31⟩) ∧ (Instr.fadd16 ⟨1, 31, 31⟩).isEvent = false) ∧
    ((0x000A4181 : BitVec 32).getLsbD 0 = true ∧ decode32 0x000A4181 = .ok (.add ⟨0, 0, 5, 4, 3⟩)) ∧
    (0x1462 : BitVec 16).getLsbD 0 = false ∧ decode16 0x1462 = .ok (.fadd16 ⟨0, 5, 3⟩) := ⟨⟨rfl, rfl⟩, ⟨rfl, rfl⟩, ⟨rfl, rfl⟩, rfl, rfl⟩
/-- StepRunsDecoded: a core about to run an ADD, no line dirty. -/
theorem test_meets_StepRunsDecoded :
    (adds.agenda = [.issue adds.cid] ∧ adds.core.phase = .run ∧ adds.core.cvPos = 0 ∧ adds.core.cvSize = 0 ∧ adds.core.ydl = 0 ∧ adds.core.closing = none ∧ adds.core.committed = false ∧ adds.corrections = [] ∧
      faultyUnits { adds.pkg with cyc := adds.pkg.cyc + 1 } = [] ∧ adds.core.capturing = false ∧ adds.core.trEn = false ∧ adds.others = [] ∧ ∀ l ∈ adds.core.lines, l.isDirty = false) ∧
    (∃ a, fetchInsn adds.core.pc { adds with agenda := [], held := false, governed := false } = .ok a ∧ a.1 = 0x000A4181) ∧ decode32 0x000A4181 = .ok (.add ⟨0, 0, 5, 4, 3⟩) :=
  ⟨by decide +kernel, answers _ (by decide +kernel), rfl⟩
/-- An instruction that has committed and must retire, its word latched, where no code lies. -/
def latchedAdd : State := run fun c => { c with insn := 0x000A4181, committed := true, noAbort := true }
theorem test_meets_StepRunsDecoded_latched : let s : State := { latchedAdd with agenda := [.issue latchedAdd.cid] }
    s.core.phase = .run ∧ s.core.cvPos = 0 ∧ s.core.cvSize = 0 ∧ s.core.ydl = 0 ∧ s.core.closing = none ∧ s.core.trEn = false ∧
    s.core.pfx = none ∧ (fetchInsn s.core.pc s).toBool = false ∧ ∃ t, exec (.add ⟨0, 0, 5, 4, 3⟩) { s with agenda := [], held := false, governed := false } = .next t :=
  ⟨rfl, rfl, rfl, rfl, rfl, rfl, rfl, by decide +kernel, goes_of (by decide +kernel)⟩
/-! ### Steps with results worked out by hand or in the manual -/

/-- What exec answers satisfies a test. -/
def after (i : Instr) (s : State) (p : State → Bool) : Bool := match exec i s with
  | .next t => p t
  | _ => false

/-- Lane i of a vector register. -/
def lane (s : State) (v i : Nat) : Nat := (VReg.nats (s.core.v v)).getD i 0

/-- Core 35 with v2 and v4 holding the given lanes, zeros after them. -/
def vecs (x y : List Lane) (f : Core → Core := id) : State :=
  let v (l : List Lane) : VReg := Vector.ofFn fun i => l.getD i.val 0
  run fun c => f { c with vregs := (c.vregs.set 2 (v x)).set 4 (v y) }

/-- Largest plus one is zero; the high half of −1 × 1 is −1. -/
theorem test_add_mulh : after (.add ⟨0, 0, 5, 4, 3⟩) (two (BitVec.allOnes 64) 1) (fun t => t.core.s 3 = 0 && t.core.pc = 0x0000_0100_0000_0004) = true ∧
    after (.mulh ⟨0, 0, 5, 4, 3⟩) (two (BitVec.allOnes 64) 1) (fun t => t.core.s 3 = BitVec.allOnes 64) = true := by decide +kernel
/-- −2^63 by −1, −7 by 2, and the remainder of 7 by 0. -/
theorem test_div_rem : after (.div ⟨0, 0, 5, 4, 3⟩) (two (1#64 <<< 63) (BitVec.allOnes 64)) (fun t => t.core.s 3 = 1#64 <<< 63) = true ∧
    after (.rem ⟨0, 0, 5, 4, 3⟩) (two (-7) 2) (fun t => t.core.s 3 = -1) = true ∧ after (.rem ⟨0, 0, 5, 4, 3⟩) (two 7 0) (fun t => t.core.s 3 = 7) = true := by
  decide +kernel
/-- A byte with its top bit set, signed and unsigned; a halfword stored leaves the byte beside it. -/
theorem test_loads_stores : (let s := physPutNat (two (own 0x100) 0x1234) ((run).ownPlace (own 0x100)) 3 0x99_8000
      after (.ld ⟨1, 0, 0, 0, 4, 3⟩) s (fun t => t.core.s 3 = 0xFFFF_FFFF_FFFF_FF80) = true ∧ after (.ld ⟨1, 0, 4, 0, 4, 3⟩) s (fun t => t.core.s 3 = 0x80) = true ∧
      after (.st ⟨0, 0, 1, 0, 4, 5⟩) s (fun t => physNat t (s.ownPlace (own 0x100)) 3 = 0x99_1234) = true) := by decide +kernel
/-- A signed minimum of 32 bits: −1 stays, and is returned sign-extended. -/
theorem test_amo_min : after (.amoMin ⟨0, 1, 0, 0, 5, 4, 3⟩) (physPutNat (two (own 0x100) 5) ((run).ownPlace (own 0x100)) 4 0xFFFF_FFFF)
    (fun t => t.core.s 3 = BitVec.allOnes 64 && physNat t (t.ownPlace (own 0x100)) 8 = 0xFFFF_FFFF) = true := by decide +kernel
/-- A branch back by 2 halfwords; JALR clears bit 0 of its target and reads its source before it writes it. -/
theorem test_branches : after (.blt ⟨0xFFE, 5, 4⟩) (two (-1) 0) (fun t => t.core.pc = 0x0000_00FF_FFFF_FFFC) = true ∧
    after (.jalr ⟨1, 0, 4, 4⟩) (two 0x4000 0) (fun t => t.core.pc = 0x4000 && t.core.s 4 = 0x0000_0100_0000_0004) = true := by decide +kernel
/-- A misaligned load freezes with cause 0x03, its address in the packet and its destination kept. -/
theorem test_misaligned : after (.ld ⟨1, 0, 1, 0, 4, 3⟩) (two (own 0x102 - 3) 0) (fun t => t.core.phase = .frozen && t.core.s 3 = 0 &&
    t.core.packets.map (fun p => (p.cause, p.addr)) = [(0x03, own 0x101)]) = true := by decide +kernel
/-- The patterns of 1.5 and −2.0 that the manual gives for each format (01_lane.md). -/
theorem test_formats : ∀ x ∈ [(fmtF64, 0x3FF8_0000_0000_0000, 0xC000_0000_0000_0000), (fmtF32, 0x3FC0_0000, 0xC000_0000), (fmtF19, 0x3FC0_0000, 0xC000_0000),
    (fmtB16, 0x3FC0, 0xC000), (fmtF16, 0x3E00, 0xC000), (fmtE5M2, 0x3E, 0xC0), (fmtE4M3, 0x3C, 0xC0), (fmtE3M4, 0x38, 0xC0)],
    (x.1.convert .rne false (fmtF32.read 0x3FC0_0000)).1 = x.2.1 ∧ (fmtF32.convert .rne false (x.1.read x.2.2)).1 = 0xC000_0000 := by decide +kernel
/-- 1 + 2^−24 ties to the even 1, inexactly; 1 / 0 is infinite; the smaller of a quiet NaN and 1 is 1 without a flag. -/
theorem test_float : after (.fadd ⟨0, 0, 0, 4, 2, 1⟩) (vecs [0x3F80_0000] [0x3380_0000]) (fun t => lane t 1 0 = 0x3F80_0000 && t.core.flags.nx = 1) = true ∧
    after (.fdiv ⟨0, 0, 0, 4, 2, 1⟩) (vecs [0x3F80_0000] [0] fun c => { c with pfx := none })
      (fun t => lane t 1 0 = 0x7F80_0000 && t.core.flags.dz.getLsbD 0 && lane t 1 1 = fmtF32.nanBits && t.core.flags.nv.getLsbD 1) = true ∧
    after (.fmin ⟨0, 0, 0, 4, 2, 1⟩) (vecs [0x7FC0_0000] [0x3F80_0000]) (fun t => lane t 1 0 = 0x3F80_0000 && t.core.flags.nv = 0) = true := by decide +kernel
/-- The worked example of R170 and R171: a conversion to E4M3 with saturation and crest. -/
theorem test_cvt_example : after (.cvt ⟨0, 1, 1, 0, 0, 0, 9, 2, 1⟩) (vecs [0x43FA_0000, 0xBE99_999A, 0x7FC0_0000] [])
    (fun t => [lane t 1 0, lane t 1 1, lane t 1 2] = [0x7E, 0xAA, 0x7F] && t.core.creg = 0x1_43FA_0000 && t.core.flags.of = 1 && t.core.flags.nx = 3 && t.core.flags.nv = 0) =
    true := by decide +kernel
/-- I16 lanes hold two elements: 0x7FFF + 1 wraps without a carry into the other; a sum of I32 lanes in a scalar. -/
theorem test_integer : after (.iadd ⟨6, 0, 0, 4, 2, 1⟩) (vecs [0x1_7FFF] [0x1]) (fun t => lane t 1 0 = 0x1_8000) = true ∧
    after (.rsum ⟨4, 0, 0, 0, 2, 3⟩) (vecs [5, 0xFFFF_FFF9] []) (fun t => t.core.s 3 = -2) = true := by decide +kernel
/-- Lanes shifted up by one, zeros moving in; the index operand of PERM taken modulo 128. -/
theorem test_permutes : after (.slide ⟨0, 0, 0, 5, 2, 1⟩) (vecs [7, 8] [] fun c => c.setS 5 1) (fun t => [lane t 1 0, lane t 1 1, lane t 1 2] = [0, 7, 8]) = true ∧
    after (.perm ⟨0, 0, 0, 4, 2, 1⟩) (vecs [7, 8] [129, 0]) (fun t => [lane t 1 0, lane t 1 1] = [8, 7]) = true := by decide +kernel
/-- The worked example of R30 and R184: a quarter of ME2M1 whose largest magnitude is 40.0. -/
theorem test_qnt_example : after (.qnt ⟨0, 0, 0, 6, 4, 17⟩) (vecs [] [0x4220_0000, 0xC150_0000, 0x3F40_0000, 0x41C0_0000] fun c => c.setS 6 (own 0))
    (fun t => physNat t (t.ownPlace (own 0)) 2 = 0x50B6 && (physTag t (t.ownPlace (own 0))).extractLsb' 0 16 = 0x8214 && t.core.flags.nx = 7 && t.core.flags.uf = 4) =
    true := by decide +kernel
/-- The worked example of R199: two ME2M1 products onto 0.25. -/
theorem test_mma_example :
    (roundAcc fmtF32 (fmtF32.read 0x3E80_0000 :: (products (rowValues oneF32 ⟨0xA5, 0x8014⟩) (rowValues oneF32 ⟨0x42, 0x7E14⟩)).1) false).1 = 0x3FA0_0000 := by
  decide +kernel
/-- The worked example of R42: 2^24 + 1 − 2^24 is 1, rounded once. -/
theorem test_sum_example : (roundAcc fmtF32 [fmtF32.read 0, fmtB16.read 0x4B80, fmtB16.read 0x3F80, fmtB16.read 0xCB80] false).1 = 0x3F80_0000 := by decide +kernel
/-- The worked round of R269: the scale byte 0x81, and CRSC as CSRR reads it. -/
theorem test_crest_example :
    let w : Word := 0x0000_0011_0020_0102
    let x := [(0, 0x4020_0000#32), (1, 0x41C0_0000#32), (2, 0x3E00_0000#32), (3, 0x4130_0000#32)].foldl (fun x p => x.contribute (96 + p.1) w (p.2, false, false)) Crest.idle
    cxLegal w = true ∧ x.complete = true ∧ x.scale = 0x81 ∧ x.nf = false ∧
    csrRead (run fun c => { c with crscScale := x.scale, crscNf := x.nf, crscCtx := 2, crscValid := true }) 35 0x011 = 0x1_2081 := by decide +kernel
/-- The worked case of R264: GANG of four by core 0.3.4. -/
theorem test_gang_example : after (.gang ⟨0, 0, 0, 9, 8⟩) { run fun c => c.setS 9 4 with cid := 52 }
    (fun t => t.core.s 8 = 0 && csrRead t 54 0x050 = 0x42 && (t.coreAt 54).phase = .follower) = true := by decide +kernel
/-- The worked translation of R280: two probes, extent 1, core 11. -/
theorem test_walk_example :
    let s := physPutNat (physPutNat (run) (64 * 0x2A5) 24 (1 + 2 + 3 * 2 ^ 32 + 0x70_0000 * 2 ^ 64 + 0x10_0000 * 2 ^ 128)) 0x10_0000 48
      (2 * 2 ^ 40 + 2 ^ 44 + 0x42_8020_0000 * 2 ^ 64 + 0x0008_9800_0020_0000 * 2 ^ 128 + 0x8100_0000 * 2 ^ 192 + (0x60_0000 + 2 ^ 40) * 2 ^ 256)
    (match walk s 0x2A5 0x2B_1234 8 .read with | .ok x => x.phys = 0xB102_1234 | .error _ => false) = true ∧
    (match walk s 0x2A5 0x65_0000 8 .read with | .ok _ => false | .error _ => true) = true := by decide +kernel
/-- The worked case of the token watchpoints: a group of three tokens that ends in a stop. -/
theorem test_token_example :
    let slot (action : Nat) (trap : Bool) (wild : Nat) (p : List Nat) : Watch := { kind := 1, action := action, trap := trap, plen := p.length, wild := wild, cntsel := 0, reserved := 0, p := p ++ List.replicate (8 - p.length) 0 }
    let q : Seq := { Seq.zero with v := true, len := 10, cap := 64, thr0 := 3, hv := 2, ninj := 2, injslot := 1, i := [7, 9, 0, 0, 0, 0, 0, 0]
                                   slots := [slot 0 true 0 [7, 9], slot 2 false 0 [3], { Watch.empty with kind := 2, action := 3 }, slot 3 false 1 [0, 3]] }
    let r := performLanes (BitVec.allOnes 128) (fun i q x t => commitLane q x i 0 {} t) [(0, 5, 3), (1, 5, 4), (2, 2 ^ 31, 0)]
      { tab := (List.replicate 32 Seq.zero).set 5 q, note := 0, traps := [] }
    r.1 = [0x0A04_09A3, 0xD, 0xC] ∧ r.2.note = 0xF ∧ (r.2.seq 5).len = 13 ∧ (r.2.seq 5).stop = true ∧
    r.2.traps.map (fun x => let p := seqPacket false x (run); (p.member, p.det1, p.det2)) = [(5, 0x1000_0009, 0x0000_0800_0000_000D)] := by decide +kernel
/-- The worked case of TCONF: three drafts, the second of which hits. -/
theorem test_draft_example :
    let q : Seq := { Seq.zero with v := true, len := 10, cap := 64, ndraft := 3, d := [2, 3, 5, 0, 0, 0, 0, 0]
                                   slots := [Watch.empty, Watch.empty, Watch.empty, { Watch.empty with kind := 1, action := 3, plen := 1, p := [3, 0, 0, 0, 0, 0, 0, 0] }] }
    let r := performLanes (BitVec.allOnes 128) (fun i q k t => confirmLane q (k % 16) i t) [(0, 6, 3)]
      { tab := (List.replicate 32 Seq.zero).set 6 q, note := 0, traps := [] }
    r.1 = [0x0040_0084] ∧ (r.2.seq 6).len = 12 ∧ (r.2.seq 6).ndraft = 0 := by decide +kernel
/-- The worked case of the experts, step 3: slot 2 of three, and its descriptor. -/
theorem test_expert_example :
    let x : BitVec 16 := 0x123
    let s := roster x (physPutNat (run) (expertAddr (run) x) 16 (1 + 0x323 * 2 ^ 16 + 0x10 * 2 ^ 40 + 5 * 2 ^ 64))
    let s := setReplica x 2 ⟨0x2A2, 2, 0x1202, 5, 0, 0⟩ (setReplica x 1 ⟨0x2A1, 2, 0x1201, 5, 3, 3⟩ (setReplica x 0 ⟨0x2A0, 2, 0x1200, 5, 2, 2⟩ s))
    after (.expertHomeOperation 0) { s with net := [.expert 1 x (.route 0 1)] } (fun t => t.net = [.expertAnswer 1 0x0000_0800_1202_22A2] && (replica t x 2).outst = 1) = true := by
  decide +kernel
/-- A follower's breakpoint at a taken branch: its caravan breaks, and the packet's PC is the branch's target, where its leader stands (R75,
R266, R433). -/
theorem test_follower_break_at_branch :
    let s := { run fun c => { c with cvPos := 1, cvSize := 2, phase := .follower, bppc := c.bppc.set 0 0x0000_0100_0000_0001 } with
      cid := 53, others := [(52, { Core.reset with phase := .run, cvSize := 2, followers := [53], pc := 0x0000_0100_0000_0040, act := some activation })] }
    (match memberRun exec (.beq ⟨0x20, 0, 0⟩) s with
     | .next t => (t.coreAt 52).packets.map (fun p => (p.cause, p.det1, p.pc)) = [(0x0D, 0x0A, 0x0000_0100_0000_0040)] && t.core.orphan
     | _ => false) = true := by decide +kernel
/-- A captured instruction faults in a follower that waits to leave its broken caravan: the packet has its RPC, and RESUME lets it wait on
(R56, R74, R222, R266). -/
theorem test_orphan_sequencer_fault :
    let s := run fun c => { c with phase := .wait .leave, orphan := true, rep := { c.rep with state := 2, count := 1, n := 1, cap := [⟨0, none, 1, none⟩] } }
    after (.repIteration 35) s (fun t => t.core.phase = .frozen && t.core.packets.map (fun p => (p.cause, p.rpc)) = [(0x01, 0x0000_0100_0000_0000)] &&
      after (.resume 35) t fun u => u.core.phase = .wait .leave && u.core.rep.state = 2) = true := by decide +kernel
/-- WCLR of a record with an uncorrectable error replays its region (R71, R301). -/
theorem test_wclr_spoilt : after (.wclr ⟨0, 0, 0, 0, 4, 0⟩) (spoilt31 (sequence fullSeq 31 0))
    (fun t => t.core.aborts = 1 && t.core.lastEcc.isSome && (seqAt t 31).v) = true := by decide +kernel
/-- A returning atomic behind a posted one that stands behind a refused entry freezes on that entry (R256). -/
theorem test_atomic_behind_refused :
    let s := (two (own 0) 1).now fun c =>
      { c with outbox := [entry (.msg 3071 5 [0]) true true, entry (.amo .add 8 (own 0) (scratch (run) 35 0) 1) true] }
    after (.amoAdd ⟨0, 1, 0, 0, 5, 4, 3⟩) s (fun t => t.core.phase = .frozen && t.core.frozenCause = 0x0F) = true := by decide +kernel
/-- FEX2 in the two 16-bit formats: half the least subnormal ties to +0, tiny and inexact; the least subnormal itself is exact (R165). -/
theorem test_ex2_ties : (∀ x ∈ [(fmtF16, 0xCE40), (fmtB16, 0xC306)], Sfu.eval .ex2 x.1 (fun _ _ => 0) x.2 = (0, { nx := true, uf := true })) ∧
    (Sfu.eval .ex2 fmtF16 (fun _ _ => 0) 0xCE00).1 = 1 := by decide +kernel
/-- YIELD, whose image lies in a scratchpad with an own posted atomic behind a refused entry, freezes on that entry (R256). -/
theorem test_yield_behind_refused :
    let s := (two (own 0) 1).now fun c =>
      { c with act := some activation, outbox := [entry (.msg 3071 5 [0]) true true, entry (.amo .add 8 (own 0) (scratch (run) 35 0) 1) true] }
    after (.yield ⟨0, 0, 0, 4, 0⟩) s (fun t => t.core.phase = .frozen && t.core.frozenCause = 0x0F) = true := by decide +kernel
/-- A STOP ends an MWAIT (R324). -/
theorem test_stop_wakes :
    let s := { run fun c => { c with phase := .wait .mwait } with monitors := [⟨35, 0x40, false, false⟩] }
    after (.stop 35) s (fun t => monitorHit t 35 && t.core.stopReq) = true := by decide +kernel
/-- EXSPAWN of the null object answers 0x11, whatever stands where an entry 0 would be (R277, R386). -/
theorem test_spawn_null :
    let s := expert id 0 0 (physPutNat (object 0 16 (two 5 0xBFF)) (entryAddr (run) 0 + 32) 2 5)
    (readEntry s 0).xrep = true ∧ (readEntry s 0).xname = 5 ∧ after (.exspawn ⟨0, 0, 5, 4, 3⟩) s (fun t => t.core.s 3 = 0x11) = true := by decide +kernel
/-- A write of ones to the header of an expert's entry leaves its reserved bits 0 (R371). -/
theorem test_header_reserved :
    let s := { run with pkg := { Package.reset with bootReady := true, xtbase := 0x400_0000 } }
    let t := homeMerge s 0x400_0400 (BitVec.allOnes 512) (BitVec.allOnes 64) 0 0
    (List.range 8).map (fun k => physNat t (0x400_0400 + 8 * k) 8) =
      [0xFF3F_0FFF_0003, 0xFFFF_FFFF, 0xFFFF_FFFF_FFFF_FFFF, 0xFFFF_FFFF_FFFF, 0x7FFF_FFFF_FFFF_FFFF, 0xFFFF_FFFF, 0, 0] ∧
    physNat (homeMerge s 0x400_0440 (BitVec.allOnes 512) (BitVec.allOnes 64) 0 0) 0x400_0440 8 = 0xFFFF_FFFF_FFFF_FFFF := by decide +kernel
/-- The worked record of R326, and the track word of R429. -/
theorem test_words : (let r := leBytes 64 (0x10 * 2 ^ 64 + 0x0000_0400_0020_0004 * 2 ^ 128 + 0x0F00_4020 * 2 ^ 192)
      lrDimX r = 4 ∧ lrDimY r = 1 ∧ lrDimZ r = 1 ∧ lrNdim r = 1 ∧ lrSeed r = false ∧ coreSet (run) r = [32, 33, 34, 35]) ∧
    trackWord 0 40 3 = 0x0000_2803 := by decide +kernel

end Sys2Proof.Tests
end

section
/-!
PROOFS. The values of the scalar functions as R130 to R137 give them, and the scalar instructions that write or go by them.
-/

namespace Sys2Proof.Machine

/-! ### Shifts and comparisons (R130) -/

theorem low6_toNat (y : Word) : (y.extractLsb' 0 6).toNat = y.toNat % 64 := by simp

theorem fnSll_eq (x y : Word) : fnSll x y = x <<< (y.extractLsb' 0 6).toNat := by rw [low6_toNat]; rfl
theorem fnSrl_eq (x y : Word) : fnSrl x y = x >>> (y.extractLsb' 0 6).toNat := by rw [low6_toNat]; rfl
theorem fnSra_eq (x y : Word) : fnSra x y = x.sshiftRight (y.extractLsb' 0 6).toNat := by rw [low6_toNat]; rfl
theorem fnRol_eq (x y : Word) :
    fnRol x y = x <<< (y.extractLsb' 0 6).toNat ||| x >>> (64 - (y.extractLsb' 0 6).toNat) := by
  rw [low6_toNat, fnRol, BitVec.rotateLeft_def, Nat.mod_mod]

theorem fnSlt_eq (x y : Word) : fnSlt x y = if x.toInt < y.toInt then 1 else 0 := by simp [fnSlt, bit, BitVec.slt_eq_decide]
theorem fnSltu_eq (x y : Word) : fnSltu x y = if x.toNat < y.toNat then 1 else 0 := by simp [fnSltu, bit, BitVec.ult_eq_decide]
theorem fnMin_eq (x y : Word) : fnMin x y = if x.toInt < y.toInt then x else y := by simp [fnMin, BitVec.slt_eq_decide]
theorem fnMax_eq (x y : Word) : fnMax x y = if x.toInt < y.toInt then y else x := by simp [fnMax, BitVec.slt_eq_decide]
theorem fnMinu_eq (x y : Word) : fnMinu x y = if x.toNat < y.toNat then x else y := by simp [fnMinu, BitVec.ult_eq_decide]
theorem fnMaxu_eq (x y : Word) : fnMaxu x y = if x.toNat < y.toNat then y else x := by simp [fnMaxu, BitVec.ult_eq_decide]

/-- A shift count of six bits is the low six bits of its word (R135). -/
theorem low6_setWidth (n : BitVec 6) : ((n.setWidth 64).extractLsb' 0 6).toNat = n.toNat := by
  simpa using n.isLt

/-! ### Products and addresses (R130, R132) -/

/-- The high half of a product is bits 127:64 of its 128-bit word. -/
theorem mulHigh_eq (x y : Int) : mulHigh x y = (BitVec.ofInt 128 (x * y)).extractLsb' 64 64 := by
  apply BitVec.eq_of_toNat_eq
  simp only [mulHigh, BitVec.toNat_ofInt, BitVec.extractLsb'_toNat, Nat.shiftRight_eq_div_pow]
  omega

theorem fnMulh_eq (x y : Word) : fnMulh x y = (BitVec.ofInt 128 (x.toInt * y.toInt)).extractLsb' 64 64 := mulHigh_eq _ _
theorem fnMulhu_eq (x y : Word) : fnMulhu x y = (BitVec.ofNat 128 (x.toNat * y.toNat)).extractLsb' 64 64 := by
  rw [fnMulhu, mulHigh_eq, ← Int.natCast_mul, BitVec.ofInt_natCast]

/-- A mask of the lowest n bits keeps the field of those bits. -/
theorem and_lowMask {n : Nat} (x m : Word) (h : m.toNat = 2 ^ n - 1) : x &&& m = (x.extractLsb' 0 n).setWidth 64 := by
  apply BitVec.eq_of_toNat_eq
  have lt : x.toNat % 2 ^ n < 2 ^ 64 := Nat.lt_of_le_of_lt (Nat.mod_le _ _) x.isLt
  simpa [h, Nat.and_two_pow_sub_one_eq_mod] using (Nat.mod_eq_of_lt lt).symm

/-- A word of three fields, its top bit first. -/
theorem toNat_fields {m n : Nat} (top : BitVec 1) (hi : BitVec m) (lo : BitVec n) :
    (top ++ hi ++ lo).toNat = top.toNat <<< m <<< n ||| hi.toNat <<< n ||| lo.toNat := by
  rw [BitVec.toNat_append, BitVec.toNat_append, Nat.shiftLeft_or_distrib]

theorem fnOmk_eq (x y : Word) : fnOmk x y = 0#1 ++ x.extractLsb' 0 23 ++ y.extractLsb' 0 40 := by
  rw [fnOmk, and_lowMask (n := 23) x _ rfl, and_lowMask (n := 40) y _ rfl]
  refine BitVec.eq_of_toNat_eq (Eq.trans ?_ (toNat_fields _ _ _).symm)
  simp (disch := omega) [Nat.shiftLeft_eq, Nat.mod_eq_of_lt]

theorem fnLspc_eq (x y : Word) : fnLspc x y = 1#1 ++ x.extractLsb' 0 3 ++ y.extractLsb' 0 60 := by
  rw [fnLspc, and_lowMask (n := 3) x _ rfl, and_lowMask (n := 60) y _ rfl]
  refine BitVec.eq_of_toNat_eq (Eq.trans ?_ (toNat_fields _ _ _).symm)
  simp (disch := omega) [Nat.shiftLeft_eq, Nat.mod_eq_of_lt]

theorem fnOid_eq (x : Word) : fnOid x = if x.getLsbD 63 then 0 else (x.extractLsb' 40 23).setWidth 64 := by
  rw [fnOid, and_lowMask (n := 23) _ _ rfl]
  rfl

theorem fnOoff_eq (x : Word) :
    fnOoff x = if x.getLsbD 63 then (x.extractLsb' 0 60).setWidth 64 else (x.extractLsb' 0 40).setWidth 64 := by
  rw [fnOoff, and_lowMask (n := 60) x _ rfl, and_lowMask (n := 40) x _ rfl]

/-! ### Counts (R130) -/

/-- Below n the zeros end at the highest one bit. -/
theorem zerosAbove_of_highest {x k n : Nat} (hk : k < n) (one : x.testBit k = true)
    (above : ∀ j, k < j → x.testBit j = false) : zerosAbove x n = n - 1 - k := by
  induction n with
  | zero => omega
  | succ n ih =>
    rcases Nat.lt_succ_iff_lt_or_eq.1 hk with lt | rfl
    · have := ih lt
      simp only [zerosAbove, above n lt, Bool.false_eq_true, if_false]
      omega
    · simp [zerosAbove, one]

theorem zerosAbove_zero (n : Nat) : zerosAbove 0 n = n := by
  induction n with
  | zero => rfl
  | succ n ih => simp [zerosAbove, ih]

/-- From bit k up the zeros end at the lowest one bit. -/
theorem zerosFrom_of_lowest {x m n : Nat} (hm : m < n) : ∀ k, x.testBit (k + m) = true →
    (∀ j < m, x.testBit (k + j) = false) → zerosFrom x k n = m := by
  induction n generalizing m with
  | zero => omega
  | succ n ih =>
    intro k one below
    cases m with
    | zero => simp [zerosFrom, show x.testBit k = true from one]
    | succ m =>
      have z : x.testBit k = false := below 0 (by omega)
      have rest : zerosFrom x (k + 1) n = m := by
        refine ih (by omega) (k + 1) ?_ fun j hj => ?_
        · rwa [Nat.add_right_comm]
        · rw [Nat.add_right_comm]; exact below (j + 1) (by omega)
      simp [zerosFrom, z, rest]

theorem zerosFrom_zero (k n : Nat) : zerosFrom 0 k n = n := by
  induction n generalizing k with
  | zero => rfl
  | succ n ih => simp [zerosFrom, ih]

theorem onesBelow_eq (x n : Nat) : onesBelow x n = ((List.range n).filter x.testBit).length := by
  induction n with
  | zero => rfl
  | succ n ih =>
    rw [onesBelow, ih, List.range_succ, List.filter_append, List.length_append, Nat.add_comm]
    cases one : x.testBit n <;> simp [one]

theorem fnClz_zero : fnClz 0 = 64 := congrArg (BitVec.ofNat 64) (zerosAbove_zero 64)
theorem fnCtz_zero : fnCtz 0 = 64 := congrArg (BitVec.ofNat 64) (zerosFrom_zero 0 64)

theorem fnClz_of_highest {x : Word} {k : Nat} (hk : k < 64) (one : x.getLsbD k = true)
    (above : ∀ j, k < j → x.getLsbD j = false) : fnClz x = BitVec.ofNat 64 (63 - k) :=
  congrArg (BitVec.ofNat 64) (zerosAbove_of_highest hk one above)

theorem fnCtz_of_lowest {x : Word} {k : Nat} (hk : k < 64) (one : x.getLsbD k = true)
    (below : ∀ j < k, x.getLsbD j = false) : fnCtz x = BitVec.ofNat 64 k :=
  congrArg (BitVec.ofNat 64) (zerosFrom_of_lowest hk 0 (by rwa [Nat.zero_add]) fun j hj => by rw [Nat.zero_add]; exact below j hj)

theorem fnPopc_eq (x : Word) : fnPopc x = BitVec.ofNat 64 ((List.range 64).filter x.getLsbD).length :=
  congrArg (BitVec.ofNat 64) (onesBelow_eq x.toNat 64)

/-! ### Division (R131) -/

theorem divS_eq_sdiv {x y : Word} (hy : y ≠ 0) : divS x y = x.sdiv y := by
  apply BitVec.eq_of_toInt_eq
  rw [divS, if_neg hy, BitVec.toInt_ofInt, BitVec.toInt_sdiv]

theorem remS_eq_srem {x y : Word} (hy : y ≠ 0) : remS x y = x.srem y := by
  rw [remS, if_neg hy, ← BitVec.toInt_srem, BitVec.ofInt_toInt]

/-- The one quotient that no word holds wraps to itself, and its remainder is zero. -/
theorem divS_overflow : divS 0x8000_0000_0000_0000 0xFFFF_FFFF_FFFF_FFFF = 0x8000_0000_0000_0000 := by decide
theorem remS_overflow : remS 0x8000_0000_0000_0000 0xFFFF_FFFF_FFFF_FFFF = 0 := by decide

/-- Where the signed quotient can be computed: a = q × b + r. -/
theorem divS_mul_add_remS {x y : Word} (hy : y ≠ 0) (ho : ¬ (x = 0x8000_0000_0000_0000 ∧ y = 0xFFFF_FFFF_FFFF_FFFF)) :
    x.toInt = (divS x y).toInt * y.toInt + (remS x y).toInt := by
  have ho : x ≠ BitVec.intMin 64 ∨ y ≠ -1#64 := Classical.not_and_iff_not_or_not.1 ho
  rw [divS_eq_sdiv hy, remS_eq_srem hy, BitVec.toInt_sdiv_of_ne_or_ne x y ho, BitVec.toInt_srem, Int.tdiv_mul_add_tmod]

theorem natAbs_remS_lt {x y : Word} (hy : y ≠ 0) : (remS x y).toInt.natAbs < y.toInt.natAbs := by
  have pos : 0 < y.toInt.natAbs := Int.natAbs_pos.2 (by simpa using (not_congr BitVec.toInt_inj).2 hy)
  rw [remS_eq_srem hy, BitVec.toInt_srem, Int.natAbs_tmod]
  exact Nat.mod_lt _ pos

/-- A remainder that is not zero has the sign of the dividend. -/
theorem remS_neg_iff {x y : Word} (hy : y ≠ 0) (hr : remS x y ≠ 0) : (remS x y).toInt < 0 ↔ x.toInt < 0 := by
  have nz : (remS x y).toInt ≠ 0 := by simpa using (not_congr BitVec.toInt_inj).2 hr
  rw [remS_eq_srem hy, BitVec.toInt_srem] at nz ⊢
  have hs : ¬ y.toInt ∣ x.toInt := fun d => nz (Int.tmod_eq_zero_of_dvd d)
  rw [← Int.sign_eq_neg_one_iff_neg, ← Int.sign_eq_neg_one_iff_neg, Int.sign_tmod, if_neg hs]

/-- For every divisor but zero the unsigned quotient and remainder are exact. -/
theorem divU_mul_add_remU {x y : Word} (hy : y ≠ 0) : x.toNat = (divU x y).toNat * y.toNat + (remU x y).toNat := by
  rw [divU, remU, if_neg hy, if_neg hy, ← BitVec.toNat_udiv, ← BitVec.toNat_umod, BitVec.ofNat_toNat, BitVec.ofNat_toNat]
  simp [Nat.div_add_mod']

theorem remU_lt {x y : Word} (hy : y ≠ 0) : (remU x y).toNat < y.toNat := by
  have pos : 0 < y.toNat := by bv_omega
  rw [remU, if_neg hy, ← BitVec.toNat_umod, BitVec.ofNat_toNat]
  simpa using Nat.mod_lt _ pos

/-! ### Results, and the conditional move (R130) -/

/-- A result may be given by any value that it equals. -/
theorem finish_result_congr {m : Act Unit} {s : State} {d : BitVec 5} {v w : Word}
    (h : finish m s = .next (s.now (·.result d v))) (hv : v = w) : finish m s = .next (s.now (·.result d w)) := hv ▸ h

theorem execCmov_calm {o : RArgs} {s : State} (hc : s.core.Calm) (ha : s.core.Full o.a) (hb : s.core.Full o.b)
    (hd : s.core.Writable o.d) :
    execCmov o s = .next (s.now (·.result o.d (if s.core.s o.a.toNat ≠ 0 then s.core.s o.b.toNat else s.core.s o.d.toNat))) := by
  apply finish_ok
  rw [actCmov, bind_act, readS_full _ ha]; dsimp only
  rw [bind_act, readS_full _ hb]; dsimp only
  rw [bind_act, readS_full _ hd.1]; dsimp only
  rw [bind_act, awaitS_writable hd]; dsimp only
  exact write_retire _ _ hc

/-! ### Upper immediates, branches and jumps (R136 to R138) -/

theorem execLui_calm {o : UArgs} {s : State} (hc : s.core.Calm) (hd : s.core.Writable o.d) :
    execLui o s = .next (s.now (·.result o.d (upper o.imm))) := by
  apply finish_ok
  rw [actLui, bind_act, awaitS_writable hd]; dsimp only
  exact write_retire _ _ hc

theorem execAuipc_calm {o : UArgs} {s : State} (hc : s.core.Calm) (hd : s.core.Writable o.d) :
    execAuipc o s = .next (s.now (·.result o.d (s.core.pc + upper o.imm))) := by
  apply finish_ok
  rw [actAuipc, bind_act, awaitS_writable hd]; dsimp only
  rw [bind_act, ask_act]; dsimp only
  exact write_retire _ _ hc

/-- A displacement counts halfwords (R84). -/
theorem branchTarget_eq {n : Nat} (pc : Word) (disp : BitVec n) : branchTarget pc disp = pc + 2 * disp.signExtend 64 := by
  rw [branchTarget, BitVec.shiftLeft_eq_mul_twoPow, BitVec.mul_comm]
  rfl

theorem fnBeq_eq (x y : Word) : fnBeq x y = decide (x = y) := rfl
theorem fnBne_eq (x y : Word) : fnBne x y = decide (x ≠ y) := decide_not.symm
theorem fnBge_eq (x y : Word) : fnBge x y = decide (y.toInt ≤ x.toInt) := by
  simp only [fnBge, BitVec.slt_eq_decide, ← decide_not, Int.not_lt]
theorem fnBgeu_eq (x y : Word) : fnBgeu x y = decide (y.toNat ≤ x.toNat) := by
  simp only [fnBgeu, BitVec.ult_eq_decide, ← decide_not, Nat.not_lt]

theorem branch_calm {f : Word → Word → Bool} {o : BArgs} {s : State} {p : Prop} [Decidable p] (hc : s.core.Calm)
    (hl : s.core.cvPos = 0) (ha : s.core.Full o.a) (hb : s.core.Full o.b)
    (hf : f (s.core.s o.a.toNat) (s.core.s o.b.toNat) = decide p) :
    finish (branch f o) s =
      .next (s.now fun c => if p then c.goTo (c.pc + 2 * o.disp.signExtend 64) else c.stepped) := by
  apply finish_ok
  rw [branch, bind_act, ask_act]; dsimp only
  rw [if_neg (not_not_intro hl), bind_act, readS_full _ ha]; dsimp only
  rw [bind_act, readS_full _ hb]; dsimp only
  rw [bind_act, ask_act]; dsimp only
  rw [hf]
  by_cases taken : p
  · simp only [taken, decide_true, if_true]
    rw [retireTo_calm _ hc, branchTarget_eq]
    rfl
  · simp only [taken, decide_false, Bool.false_eq_true, if_false]
    exact retire_calm hc

/-- The link written, and control gone to an address. -/
theorem link_retireTo {s : State} (d : BitVec 5) (v pc : Word) (h : s.core.Calm) :
    (do writeS d v; retireTo pc : Act Unit) s = .ok ((), s.now fun c => (c.setS d.toNat v).goTo pc) := by
  have h2 : (s.now (·.setS d.toNat v)).core.Calm := calm_setS d.toNat v h
  rw [bind_act, writeS_calm d v h.1]
  exact retireTo_calm pc h2

theorem execJal_calm {o : UArgs} {s : State} (hc : s.core.Calm) (hd : s.core.Writable o.d) :
    execJal o s = .next (s.now fun c => (c.setS o.d.toNat (c.pc + 4)).goTo (c.pc + 2 * o.imm.signExtend 64)) := by
  apply finish_ok
  rw [actJal, bind_act, awaitS_writable hd]; dsimp only
  rw [bind_act, ask_act]; dsimp only
  rw [branchTarget_eq]
  exact link_retireTo _ _ _ hc

theorem execJalr_calm {o : IArgs} {s : State} (hc : s.core.Calm) (hl : s.core.cvPos = 0) (ha : s.core.Full o.a)
    (hd : s.core.Writable o.d) :
    execJalr o s = .next (s.now fun c =>
      (c.setS o.d.toNat (c.pc + 4)).goTo ((c.s o.a.toNat + o.imm.signExtend 64) &&& 0xFFFF_FFFF_FFFF_FFFE)) := by
  apply finish_ok
  rw [actJalr, bind_act, ask_act]; dsimp only
  rw [if_neg (not_not_intro hl), bind_act, readS_full _ ha]; dsimp only
  rw [bind_act, awaitS_writable hd]; dsimp only
  rw [bind_act, ask_act]
  exact link_retireTo _ _ _ hc

end Sys2Proof.Machine
end

section
/-! ### The statements -/

open Sys2Proof Sys2Proof.Machine

/-- Settles O1: the shared act of the ALU gives what its function gives, and each function's value is its row's. -/
theorem scalarAlu : Obligations.ScalarAlu := by
  refine ⟨fun s o hc ha hb hd => ?_, fun s o hc ha hd => ?_, fun s o hc ha hb hd => ?_⟩
  · have row {f : Word → Word → Word} {v : Word} := finish_result_congr (w := v) (alu2_calm (f := f) hc ha hb hd)
    exact ⟨row rfl, row rfl, row rfl, row rfl, row rfl, row (fnSll_eq _ _), row (fnSrl_eq _ _), row (fnSra_eq _ _),
      row (fnRol_eq _ _), row (fnSlt_eq _ _), row (fnSltu_eq _ _), row (fnMin_eq _ _), row (fnMax_eq _ _),
      row (fnMinu_eq _ _), row (fnMaxu_eq _ _), row rfl, row (fnMulh_eq _ _), row (fnMulhu_eq _ _), row (fnOmk_eq _ _),
      row (fnLspc_eq _ _)⟩
  · have row {f : Word → Word} {v : Word} := finish_result_congr (w := v) (alu1_calm (f := f) hc ha hd)
    exact ⟨fun hx => ⟨row (hx ▸ fnClz_zero), row (hx ▸ fnCtz_zero)⟩, fun k hk one above => row (fnClz_of_highest hk one above),
      fun k hk one below => row (fnCtz_of_lowest hk one below), row (fnPopc_eq _), row (fnOid_eq _), row (fnOoff_eq _),
      fun hb => execCmov_calm hc ha hb hd⟩
  · have row {f : Word → Word → Word} {v : Word} := finish_result_congr (w := v) (alu2_calm (f := f) hc ha hb hd)
    refine ⟨fun hy => ⟨row (if_pos hy), row (if_pos hy), row (if_pos hy), row (if_pos hy)⟩,
      fun hx hy => ⟨row ?_, row ?_⟩,
      fun hy ho => ⟨_, _, row rfl, row rfl, divS_mul_add_remS hy ho, natAbs_remS_lt hy, remS_neg_iff hy⟩,
      fun hy => ⟨_, _, row rfl, row rfl, divU_mul_add_remU hy, remU_lt hy⟩⟩
    · rw [hx, hy]; exact divS_overflow
    · rw [hx, hy]; exact remS_overflow

/-- Settles O2: the immediate shapes give what the ALU's functions give on the extended immediate. -/
theorem immediateAlu : Obligations.ImmediateAlu := by
  refine ⟨fun s o hc ha hd => ?_, fun s o hc ha hd => ?_, fun s o hc hd => ⟨execLui_calm hc hd, execAuipc_calm hc hd⟩⟩
  · have row {f : Word → Word → Word} {v : Word} := finish_result_congr (w := v) (aluImm_calm (f := f) hc ha hd)
    exact ⟨row rfl, row rfl, row rfl, row rfl, row (fnSlt_eq _ _), row (fnSltu_eq _ _)⟩
  · have row {f : Word → Word → Word} {v : Word} := finish_result_congr (w := v) (shiftImm_calm (f := f) hc ha hd)
    refine ⟨row ?_, row ?_, row ?_, row ?_⟩
    · rw [fnSll_eq, low6_setWidth]
    · rw [fnSrl_eq, low6_setWidth]
    · rw [fnSra_eq, low6_setWidth]
    · rw [fnRol_eq, low6_setWidth]

/-- Settles O3: a branch goes by its condition on the two operands, a jump links and goes to its target. -/
theorem controlFlow : Obligations.ControlFlow := by
  refine ⟨fun s o hc hl ha hb => ?_, fun s o hc hd => execJal_calm hc hd, fun s o hc hl ha hd => execJalr_calm hc hl ha hd⟩
  have row {f : Word → Word → Bool} {p : Prop} [Decidable p] := branch_calm (f := f) (p := p) hc hl ha hb
  exact ⟨row (fnBeq_eq _ _), row (fnBne_eq _ _), row BitVec.slt_eq_decide, row (fnBge_eq _ _), row BitVec.ult_eq_decide,
    row (fnBgeu_eq _ _)⟩
end

section
/-!
PROOFS. The update instructions on ranges of the own scratchpad (R401 to R407): what a run of bytes there reads and takes, and what
the skip flag, OPTA and OPTW come to.
-/

namespace Sys2Proof.Machine

/-! ### Acts that answer -/

/-- An act behind one that answers goes on with its answer. -/
theorem bind_of_ok {α β : Type} {m : Act α} {f : α → Act β} {s t : State} {x : α} (h : m s = .ok (x, t)) : (m >>= f) s = f x t := by
  rw [bind_act, h]

/-- An act that leaves the state does so for each member of a list, and its results are listed. -/
theorem collect_ok {α β : Type} {f : α → Act β} {g : α → β} {s : State} {xs : List α} (h : ∀ x ∈ xs, f x s = .ok (g x, s)) :
    collect f xs s = .ok (xs.map g, s) := by
  induction xs with
  | nil => rfl
  | cons x xs ih =>
    rw [collect, bind_of_ok (h x (by simp)), bind_of_ok (ih fun y hy => h y (by simp [hy]))]
    rfl

theorem collect_map {α β γ : Type} (f : β → Act γ) (g : α → β) (xs : List α) :
    collect f (xs.map g) = collect (fun x => f (g x)) xs := by
  induction xs with
  | nil => rfl
  | cons x xs ih => rw [List.map_cons, collect, collect, ih]

/-! Elements of a list by their number, with a value beyond its end. -/

theorem getD_of_lt {α : Type} {l : List α} {n : Nat} {x : α} (h : n < l.length) : l.getD n x = l[n] := by
  rw [List.getD_eq_getElem?_getD, List.getElem?_eq_getElem h, Option.getD_some]

theorem getD_append_near {α : Type} {l r : List α} {n : Nat} {x : α} (h : n < l.length) : (l ++ r).getD n x = l.getD n x := by
  rw [List.getD_eq_getElem?_getD, List.getElem?_append_left h, ← List.getD_eq_getElem?_getD]

theorem getD_append_far {α : Type} {l r : List α} {n : Nat} {x : α} (h : l.length ≤ n) :
    (l ++ r).getD n x = r.getD (n - l.length) x := by
  rw [List.getD_eq_getElem?_getD, List.getElem?_append_right h, ← List.getD_eq_getElem?_getD]

theorem eccFaults_ok {α : Type} {m : Act α} {s : State} {r : α × State} (h : m s = .ok r) : eccFaults m s = .ok r := by
  rw [eccFaults, h]

theorem atAddr_ok {α : Type} {a : Word} {m : Act α} {s : State} {r : α × State} (h : m s = .ok r) : atAddr a m s = .ok r := by
  rw [atAddr, h]

theorem boundsAt_ok {m : Act Target} {a : Word} {n : Nat} {s : State} {r : Target × State} (h : m s = .ok r) :
    boundsAt m a n s = .ok r := by
  rw [boundsAt, h]

theorem orWait_ok {m : Act Unit} {s : State} {r : Unit × State} (h : m s = .ok r) : orWait m s = .ok r := by
  rw [orWait, h]

/-! ### Ranges of the own scratchpad (R61, R399) -/

/-- `n` bytes from an address up lie in the own scratchpad, through space 1, below its system area. -/
structure InOwn (a : Word) (n : Nat) : Prop where
  space : a.extractLsb' 60 4 = 9
  bound : (a.extractLsb' 0 60).toNat + n ≤ 0xD8000

theorem off_toNat (a : Word) : (a.extractLsb' 0 60).toNat = a.toNat % 2 ^ 60 := by simp
theorem top_toNat (a : Word) : (a.extractLsb' 60 4).toNat = a.toNat / 2 ^ 60 % 16 := by simp [Nat.shiftRight_eq_div_pow]

/-- The address as a number. -/
theorem InOwn.toNat_eq {a : Word} {n : Nat} (h : InOwn a n) : a.toNat = 9 * 2 ^ 60 + (a.extractLsb' 0 60).toNat := by
  have ht : a.toNat / 2 ^ 60 % 16 = 9 := by rw [← top_toNat, h.space]; rfl
  have hl := a.isLt
  rw [off_toNat]
  omega

theorem InOwn.mono {a : Word} {m n : Nat} (h : InOwn a n) (hm : m ≤ n) : InOwn a m :=
  ⟨h.space, Nat.le_trans (Nat.add_le_add_left hm _) h.bound⟩

/-- The range that begins `j` bytes further on, and its offset. -/
theorem InOwn.shift {a : Word} {n j m : Nat} (h : InOwn a n) (hj : j + m ≤ n) :
    InOwn (a + BitVec.ofNat 64 j) m ∧ ((a + BitVec.ofNat 64 j).extractLsb' 0 60).toNat = (a.extractLsb' 0 60).toNat + j := by
  have ha := h.toNat_eq
  have hb := h.bound
  have hsum : (a + BitVec.ofNat 64 j).toNat = a.toNat + j := by
    rw [BitVec.toNat_add, BitVec.toNat_ofNat]
    omega
  have hoff : ((a + BitVec.ofNat 64 j).extractLsb' 0 60).toNat = (a.extractLsb' 0 60).toNat + j := by
    rw [off_toNat, hsum]
    omega
  refine ⟨⟨BitVec.eq_of_toNat_eq ?_, by omega⟩, hoff⟩
  rw [top_toNat, hsum, ha]
  show _ = 9
  omega

theorem InOwn.bit63 {a : Word} {n : Nat} (h : InOwn a n) : a.getLsbD 63 = true := by
  have := congrArg (fun b : BitVec 4 => b.getLsbD 3) h.space
  simpa [BitVec.getLsbD_extractLsb'] using this

theorem InOwn.spaceOf_eq {a : Word} {n : Nat} (h : InOwn a n) : spaceOf a = 1 := by
  have ha := h.toNat_eq
  have hb := h.bound
  rw [spaceOf, BitVec.extractLsb'_toNat, Nat.shiftRight_eq_div_pow]
  omega

theorem InOwn.ownPlace_add {a : Word} {n j m : Nat} (h : InOwn a n) (hj : j + m ≤ n) (s : State) :
    s.ownPlace (a + BitVec.ofNat 64 j) = s.ownPlace a + j := by
  rw [State.ownPlace, (h.shift hj).2]
  simp only [State.ownPlace, scratch, physAddr]
  omega

/-- The access of a range reaches its place, whatever its alignment (R141, R251). -/
theorem InOwn.localTarget_eq {a : Word} {n : Nat} (h : InOwn a n) (hn : 0 < n) (s : State) (m : Mode) :
    localTarget s a n m = .ok (.sram (s.ownPlace a) true a) := by
  have hb : restOf a + n ≤ 0xD8000 := h.bound
  have hsys : inSystemArea (restOf a) = false := by simp [inSystemArea]; omega
  simp only [localTarget, h.spaceOf_eq, hsys, Bool.and_false]
  rw [if_neg (by omega)]
  rfl

/-- A place of the own scratchpad lies in an SRAM, and its home is the scratchpad's. -/
theorem InOwn.kindOf_eq {a : Word} {n i : Nat} (h : InOwn a n) {s : State} (hc : s.cid < 3072) (hi : i < n) :
    kindOf (s.ownPlace a + i) = 1 := by
  have hb := h.bound
  simp only [State.ownPlace, scratch, physAddr, kindOf]
  omega

theorem InOwn.homeOf_eq {a : Word} {n : Nat} (h : InOwn a n) (hn : 0 < n) {s : State} (hc : s.cid < 3072) :
    homeOf (s.ownPlace a) = homeOf (scratch s s.cid 0) := by
  have hb := h.bound
  have k1 : kindOf (s.ownPlace a) = 1 := by simpa using h.kindOf_eq (i := 0) hc hn
  have k0 : kindOf (scratch s s.cid 0) = 1 := by
    simp only [scratch, physAddr, kindOf]
    omega
  rw [homeOf, homeOf, if_neg (by omega), if_neg (by omega)]
  simp only [State.ownPlace, scratch, physAddr]
  omega

/-- A block's place of the scratchpad is a block. -/
theorem InOwn.ownPlace_mod {a : Word} {n : Nat} (h : InOwn a n) (ha : a.toNat % 64 = 0) (s : State) : s.ownPlace a % 64 = 0 := by
  have hq := h.toNat_eq
  simp only [State.ownPlace, scratch, physAddr]
  omega

/-! ### The state in which an update instruction runs -/

/-- The own scratchpad may be accessed at once and nothing of it is spoilt; L1 is empty. -/
structure State.OwnReady (s : State) : Prop where
  cid_lt : s.cid < 3072
  ecc_nil : s.ecc = []
  turn : s.OwnTurn
  canonical : s.Canonical
  lines_nil : s.core.lines = []

theorem postedAhead_home {s : State} {p q : Nat} (h : homeOf p = homeOf q) : postedAhead s p = postedAhead s q := by
  rw [postedAhead, postedAhead, h]

section
variable {s : State} {a : Word} {n : Nat}

theorem State.OwnReady.target_eq (h : s.OwnReady) (ha : InOwn a n) (hn : 0 < n) (m : Mode) (need : Need) (ordered : Bool) :
    target a n m need 0 ordered s = .ok (.sram (s.ownPlace a) true a, s) := by
  have turn : postedAhead s (s.ownPlace a) = false := by rw [postedAhead_home (ha.homeOf_eq hn h.cid_lt), h.turn.2]
  simp only [target, h.turn.1, ha.bit63, ha.localTarget_eq hn]
  cases ordered
  · rfl
  · simp [behindSram, turn, Except.map]

theorem State.OwnReady.reachable_own (h : s.OwnReady) (ha : InOwn a n) (hn : 0 < n) : reachable s (s.ownPlace a) = true := by
  have bound : (a.extractLsb' 0 60).toNat + 1 ≤ 2 ^ 20 := by
    have := ha.bound
    omega
  have sound : ∀ b, b ∉ s.ecc := fun b => by simp [h.ecc_nil]
  exact own_reach (w := 1) ⟨h.cid_lt, Nat.mod_one _, ha.space, bound, sound _⟩ Nat.one_pos

theorem State.OwnReady.readable_own (h : s.OwnReady) (ha : InOwn a n) (hn : 0 < n) : readable (s.ownPlace a) a s = .ok ((), s) :=
  readable_ok a (h.reachable_own ha hn) (by simp [h.ecc_nil])
end

/-! ### The pieces of a run (R259) -/

/-- Pieces cover the bytes of a run of `n` from offset `i` on, in order and without a gap. -/
def Tiles (a : Word) (n : Nat) : Nat → List (Word × Nat) → Prop
  | i, [] => i = n
  | i, p :: ps => p.1 = a + BitVec.ofNat 64 i ∧ 0 < p.2 ∧ Tiles a n (i + p.2) ps

theorem Tiles.le {a : Word} {n i : Nat} {ps : List (Word × Nat)} (h : Tiles a n i ps) : i ≤ n := by
  induction ps generalizing i with
  | nil => exact Nat.le_of_eq h
  | cons p ps ih => exact Nat.le_of_add_right_le (ih h.2.2)

/-- The whole blocks of a run, from block `j` on. -/
theorem tiles_blocks (a : Word) {n first : Nat} (hf : first ≤ n) (c j : Nat) (hj : j + c = (n - first + 63) / 64) :
    Tiles a n (min n (first + 64 * j)) ((List.range' j c).map fun k =>
      (a + BitVec.ofNat 64 (first + 64 * k), if k + 1 = (n - first + 63) / 64 then n - first - 64 * k else 64)) := by
  induction c generalizing j with
  | zero =>
    show min n (first + 64 * j) = n
    omega
  | succ c ih =>
    have here : min n (first + 64 * j) = first + 64 * j := by omega
    have next := ih (j + 1) (by omega)
    rw [here]
    refine ⟨rfl, ?_, ?_⟩
    · dsimp only; split <;> omega
    · dsimp only
      have reached : first + 64 * j + (if j + 1 = (n - first + 63) / 64 then n - first - 64 * j else 64) =
          min n (first + 64 * (j + 1)) := by split <;> omega
      rw [reached]
      exact next

theorem pieces_tiles {a : Word} {n : Nat} (ha : a.getLsbD 63 = true) (hn : 0 < n) : Tiles a n 0 (pieces a n) := by
  have zero : a + BitVec.ofNat 64 0 = a := BitVec.add_zero a
  simp only [pieces, ha, if_true, Nat.ne_of_gt hn, if_false]
  split
  · exact ⟨zero.symm, hn, Nat.zero_add n⟩
  · next hle =>
    have hm := a.toNat.mod_lt (show 0 < 64 by omega)
    refine ⟨zero.symm, by dsimp only; omega, ?_⟩
    have blocks := tiles_blocks a (n := n) (first := min n (64 - a.toNat % 64)) (by omega) _ 0 (Nat.zero_add _)
    have start : min n (min n (64 - a.toNat % 64) + 64 * 0) = 0 + min n (64 - a.toNat % 64) := by omega
    rw [List.range_eq_range']
    rw [start] at blocks
    exact blocks

theorem Tiles.mem {a : Word} {n i : Nat} {ps : List (Word × Nat)} (h : Tiles a n i ps) (ha : InOwn a n) :
    ∀ p ∈ ps, InOwn p.1 p.2 ∧ 0 < p.2 := by
  induction ps generalizing i with
  | nil => simp
  | cons p ps ih =>
    obtain ⟨hp, hpos, hps⟩ := h
    rw [List.forall_mem_cons]
    exact ⟨⟨hp ▸ (ha.shift hps.le).1, hpos⟩, ih hps⟩

/-- Every piece of a range of the own scratchpad is one. -/
theorem InOwn.mem_pieces {a : Word} {n : Nat} (ha : InOwn a n) (hn : 0 < n) : ∀ p ∈ pieces a n, InOwn p.1 p.2 ∧ 0 < p.2 :=
  (pieces_tiles ha.bit63 hn).mem ha

/-! ### Runs of bytes -/

theorem physBytes_append (s : State) (p m n : Nat) : physBytes s p (m + n) = physBytes s p m ++ physBytes s (p + m) n := by
  simp [physBytes, List.range_add, Nat.add_assoc]

@[simp] theorem physBytes_length (s : State) (p n : Nat) : (physBytes s p n).length = n := by simp [physBytes]

/-- A run within a run. -/
theorem physBytes_drop_take (s : State) (p : Nat) {j m n : Nat} (h : j + m ≤ n) :
    ((physBytes s p n).drop j).take m = physBytes s (p + j) m := by
  obtain ⟨r, rfl⟩ := Nat.exists_eq_add_of_le h
  rw [Nat.add_assoc, physBytes_append s p j, List.drop_left' (physBytes_length s p j), physBytes_append,
    List.take_left' (physBytes_length s (p + j) m)]

theorem Tiles.bytes {a : Word} {n i : Nat} {ps : List (Word × Nat)} (h : Tiles a n i ps) (ha : InOwn a n) (s : State) :
    (ps.map fun p => physBytes s (s.ownPlace p.1) p.2).flatten = physBytes s (s.ownPlace a + i) (n - i) := by
  induction ps generalizing i with
  | nil =>
    obtain rfl : i = n := h
    simp [physBytes]
  | cons p ps ih =>
    obtain ⟨hp, -, hps⟩ := h
    have hle := hps.le
    rw [List.map_cons, List.flatten_cons, ih hps, hp, ha.ownPlace_add hle, show n - i = p.2 + (n - (i + p.2)) by omega,
      physBytes_append, Nat.add_assoc]

section
variable {s : State} {a : Word} {n : Nat}

/-- The bytes of the pieces are the bytes of the run. -/
theorem InOwn.pieces_bytes (ha : InOwn a n) (hn : 0 < n) (s : State) :
    ((pieces a n).map fun p => physBytes s (s.ownPlace p.1) p.2).flatten = physBytes s (s.ownPlace a) n := by
  rw [(pieces_tiles ha.bit63 hn).bytes ha s, Nat.add_zero, Nat.sub_zero]

theorem State.OwnReady.readTarget_own (h : s.OwnReady) (ha : InOwn a n) (hn : 0 < n) :
    readTarget (.sram (s.ownPlace a) true a) n 0 s = .ok ((physBytes s (s.ownPlace a) n, false), s) := by
  rw [readTarget, bind_of_ok (h.readable_own ha hn), bind_of_ok (askS_act _ s)]
  rfl

/-- A run of bytes of the own scratchpad is read, one piece after the other. -/
theorem State.OwnReady.readPieces_own (h : s.OwnReady) (ha : InOwn a n) (hn : 0 < n) :
    readPieces a n s = .ok ((physBytes s (s.ownPlace a) n, false), s) := by
  have piece : ∀ p ∈ pieces a n, (do
      let t ← boundsAt (target p.1 p.2 .load .read 0 false) p.1 p.2
      let r ← readTarget t p.2
      pure (r.1, t.commits) : Act (List Byte × Bool)) s = .ok ((physBytes s (s.ownPlace p.1) p.2, false), s) := fun p hp => by
    obtain ⟨hown, hpos⟩ := ha.mem_pieces hn p hp
    rw [bind_of_ok (boundsAt_ok (h.target_eq hown hpos .load .read false)), bind_of_ok (h.readTarget_own hown hpos)]
    rfl
  rw [readPieces, bind_of_ok (collect_ok piece), pure_act, ← ha.pieces_bytes hn s]
  simp [Function.comp_def]

/-- The same as one load at an address (R141). -/
theorem State.OwnReady.readImageAt_own (h : s.OwnReady) (ha : InOwn a n) (hn : 0 < n) :
    readImageAt a n s = .ok ((physBytes s (s.ownPlace a) n, false), s) := by
  have place : ∀ p ∈ pieces a n, (do
      let t ← target p.1 p.2 .load .read 0 false
      pure (t, p.2) : Act (Target × Nat)) s = .ok ((.sram (s.ownPlace p.1) true p.1, p.2), s) := fun p hp => by
    obtain ⟨hown, hpos⟩ := ha.mem_pieces hn p hp
    rw [bind_of_ok (h.target_eq hown hpos .load .read false)]
    rfl
  have bytes : ∀ p ∈ pieces a n, readTarget (.sram (s.ownPlace p.1) true p.1) p.2 0 s =
      .ok ((physBytes s (s.ownPlace p.1) p.2, false), s) := fun p hp => by
    obtain ⟨hown, hpos⟩ := ha.mem_pieces hn p hp
    exact h.readTarget_own hown hpos
  refine atAddr_ok ?_
  rw [bind_of_ok (collect_ok place), collect_map, bind_of_ok (collect_ok bytes), pure_act, ← ha.pieces_bytes hn s]
  simp [Function.comp_def, Target.commits]

/-- A run whose turn has come (R152, R253). -/
theorem State.OwnReady.orderRun_own (h : s.OwnReady) (ha : InOwn a n) (hn : 0 < n) : orderRun a n s = .ok ((), s) :=
  each_ok fun p hp => by
    obtain ⟨hown, hpos⟩ := ha.mem_pieces hn p hp
    rw [bind_of_ok (h.target_eq hown hpos .load .read true)]
    rfl

/-! ### The checks of a range (R399, R404) -/

theorem InOwn.inOptSpace_eq (ha : InOwn a n) : inOptSpace a s = .ok ((), s) :=
  require_true (by rw [ha.spaceOf_eq]; simp)

theorem aligned_eq {w : Nat} (h : a.toNat % w = 0) : aligned a w s = .ok ((), s) := require_true (decide_eq_true h)

theorem State.OwnReady.checkRange_own (h : s.OwnReady) (ha : InOwn a n) (hn : 0 < n) (m : Mode) (need : Need) (tagMask : BitVec 5) :
    checkRange a n m need tagMask s = .ok ((), s) := by
  rw [checkRange, bind_of_ok ha.inOptSpace_eq]
  refine each_ok fun p hp => ?_
  obtain ⟨hown, hpos⟩ := ha.mem_pieces hn p hp
  rw [bind_of_ok (h.target_eq hown hpos m need false)]
  split
  · exact eccFaults_ok (h.readable_own hown hpos)
  · simp [takesStore, mergeRefused, h.ecc_nil]

theorem State.OwnReady.checkRead_own (h : s.OwnReady) (ha : InOwn a n) (hn : 0 < n) : checkRead a n s = .ok ((), s) :=
  h.checkRange_own ha hn .load .read 0

theorem State.OwnReady.checkUpdate_own (h : s.OwnReady) (ha : InOwn a n) (hn : 0 < n) (tagMask : BitVec 5) :
    checkUpdate a n tagMask s = .ok ((), s) :=
  h.checkRange_own ha hn .store .update tagMask

theorem State.OwnReady.checkNamed_own (h : s.OwnReady) (ha : InOwn a n) (hn : 0 < n) : checkNamed a n s = .ok ((), s) := by
  rw [checkNamed, bind_of_ok ha.inOptSpace_eq]
  refine each_ok fun p hp => ?_
  obtain ⟨hown, hpos⟩ := ha.mem_pieces hn p hp
  rw [bind_of_ok (h.target_eq hown hpos .load .named false)]
  rfl

/-! ### Values read (R404) -/

/-- The values of a range, `w` bytes each. -/
theorem State.OwnReady.readValues_own {w : Nat} (h : s.OwnReady) (ha : InOwn a (w * n)) (hn : 0 < w * n) :
    readValues w a n s = .ok ((List.range n).map fun k => physNat s (s.ownPlace a + w * k) w, s) := by
  rw [readValues, bind_of_ok (eccFaults_ok (h.readPieces_own ha hn)), pure_act]
  refine congrArg (fun l => Except.ok (l, s)) (List.map_congr_left fun k hk => ?_)
  have hk : w * k + w ≤ w * n := by
    rw [← Nat.mul_succ]
    exact Nat.mul_le_mul_left w (List.mem_range.1 hk)
  rw [physBytes_drop_take s _ hk, physNat]
end

/-! ### Bytes merged into a block (R63) -/

theorem getLsbD_byteMask {n k : Nat} (hk : k < 64) : (byteMask 0 n).getLsbD k = decide (k < n) := by
  rw [byteMask, Nat.pow_zero, Nat.mul_one, BitVec.getLsbD_ofNat, Nat.testBit_two_pow_sub_one, decide_eq_true hk, Bool.true_and]

theorem leValue_lt (bs : List Byte) : leValue bs < 2 ^ (8 * bs.length) := by
  induction bs with
  | nil => simp [leValue]
  | cons b bs ih =>
    have hb := b.isLt
    rw [leValue, List.length_cons, Nat.mul_succ, Nat.pow_add]
    omega

/-- Byte `k` of a little-endian value. -/
theorem leValue_byte (bs : List Byte) (k : Nat) : leValue bs / 2 ^ (8 * k) % 2 ^ 8 = (bs.getD k 0).toNat := by
  induction bs generalizing k with
  | nil => simp [leValue]
  | cons b bs ih =>
    have hb := b.isLt
    cases k with
    | zero =>
      simp only [leValue, List.getD_cons_zero]
      omega
    | succ k =>
      have split : (b.toNat + 256 * leValue bs) / 2 ^ 8 = leValue bs := by omega
      rw [leValue, show 8 * (k + 1) = 8 + 8 * k by omega, Nat.pow_add, ← Nat.div_div_eq_div_mul, split, ih, List.getD_cons_succ]

/-- A word that holds little-endian bytes has them as its own. -/
theorem extractByte_leValue {bs : List Byte} {w : Nat} (hw : 8 * bs.length ≤ w) (k : Nat) :
    (BitVec.ofNat w (leValue bs)).extractLsb' (8 * k) 8 = bs.getD k 0 := by
  have fits : leValue bs < 2 ^ w := Nat.lt_of_lt_of_le (leValue_lt bs) (Nat.pow_le_pow_right Nat.two_pos hw)
  refine BitVec.eq_of_toNat_eq ?_
  rw [BitVec.extractLsb'_toNat, BitVec.toNat_ofNat, Nat.mod_eq_of_lt fits, Nat.shiftRight_eq_div_pow, leValue_byte]

theorem byteOf_placed {bs : List Byte} (hl : bs.length ≤ 64) (k : Nat) : byteOf (placed 0 bs) k = bs.getD k 0 := by
  rw [byteOf, placed, Nat.mul_zero, Nat.pow_zero, Nat.mul_one, extractByte_leValue (by omega)]

/-- Bytes written one by one where a test holds, which it does for as many as there are, are those bytes put. -/
theorem foldl_physSet_eq_put {g : Nat → Bool} {f : Nat → Byte} {p c j : Nat} {bs : List Byte} (s : State) (hc : bs.length ≤ c)
    (hg : ∀ k < c, g (j + k) = decide (k < bs.length)) (hf : ∀ k < bs.length, f (j + k) = bs.getD k 0) :
    (List.range' j c).foldl (fun u k => if g k then physSet u (p + k) (f k) else u) s = physPut s (p + j) bs := by
  induction c generalizing j bs s with
  | zero =>
    obtain rfl : bs = [] := List.length_eq_zero_iff.1 (by omega)
    rfl
  | succ c ih =>
    have here : g j = decide (0 < bs.length) := hg 0 (by omega)
    rw [List.range'_succ, List.foldl_cons, here]
    have step : ∀ k, j + 1 + k = j + (k + 1) := fun k => by omega
    cases bs with
    | nil =>
      refine ih (bs := []) s (Nat.zero_le c) (fun k hk => ?_) fun k hk => absurd hk (Nat.not_lt_zero k)
      simpa [step] using hg (k + 1) (by omega)
    | cons b bs =>
      have byte : f j = b := hf 0 (by simp)
      rw [if_pos (by simp), byte]
      refine ih (bs := bs) _ (by simpa using hc) (fun k hk => ?_) fun k hk => ?_
      · simpa [step] using hg (k + 1) (by omega)
      · simpa [step] using hf (k + 1) (by simpa using hk)

/-- A merge of bytes at the start of a sound block of an SRAM puts those bytes, and its tag bytes. -/
theorem homeMerge_placed {s : State} {p : Nat} {bs : List Byte} (hecc : s.ecc = []) (hk : kindOf p ≠ 0) (hl : bs.length ≤ 64)
    (t : Tag) (tm : BitVec 5) :
    homeMerge s p (placed 0 bs) (byteMask 0 bs.length) t tm = physSetTag (physPut s p bs) p t tm := by
  rw [homeMerge, hecc, if_neg (by simp), List.range_eq_range', asHeld_of (isHeader_kind hk)]
  rw [foldl_physSet_eq_put s (j := 0) hl (fun k hk => ?_) fun k _ => ?_]
  · rfl
  · rw [Nat.zero_add, getLsbD_byteMask hk]
  · rw [Nat.zero_add, byteOf_placed hl]

/-! ### What a write of committed bytes changes (R404) -/

/-- From `s` to `t` the bytes from `p` up are written, and the tag bytes of a mask in their blocks; the core and all else that an
access asks about stay. -/
structure Wrote (p : Nat) (bs : List Byte) (tag : Tag) (tm : BitVec 5) (s t : State) : Prop where
  core : t.core = s.core
  cid : t.cid = s.cid
  pkg : t.pkg = s.pkg
  ecc : t.ecc = s.ecc
  net : t.net = s.net
  canonical : t.Canonical
  byte : ∀ q, physGet t q = if p ≤ q ∧ q < p + bs.length then bs.getD (q - p) 0 else physGet s q
  tagged : ∀ q, physTag t q = if tm ≠ 0 ∧ p ≤ q ∧ q < p + bs.length then mergeTag (physTag s q) tag tm else physTag s q

theorem physGet_put {s : State} {p : Nat} {bs : List Byte} (hk : ∀ i < bs.length, kindOf (p + i) ≠ 3) (h : s.Canonical) (q : Nat) :
    physGet (physPut s p bs) q = if p ≤ q ∧ q < p + bs.length then bs.getD (q - p) 0 else physGet s q := by
  obtain ⟨host, inside, outside⟩ := cellGet_put bs hk h
  split
  · next hq =>
    obtain ⟨i, rfl⟩ := Nat.exists_eq_add_of_le hq.1
    have hi : i < bs.length := by omega
    rw [physGet, if_neg (hk i hi), inside i hi, Nat.add_sub_cancel_left]
  · next hq => rw [physGet, physGet, host, outside q (by omega), hostAddr, hostAddr, physPut_pkg]

section
variable (s : State) (p : Nat) (t : Tag) (m : BitVec 5)

@[simp] theorem physSetTag_core : (physSetTag s p t m).core = s.core := by unfold physSetTag; split <;> rfl
@[simp] theorem physSetTag_cid : (physSetTag s p t m).cid = s.cid := by unfold physSetTag; split <;> rfl
@[simp] theorem physSetTag_pkg : (physSetTag s p t m).pkg = s.pkg := by unfold physSetTag; split <;> rfl
@[simp] theorem physSetTag_ecc : (physSetTag s p t m).ecc = s.ecc := by unfold physSetTag; split <;> rfl
@[simp] theorem physSetTag_net : (physSetTag s p t m).net = s.net := by unfold physSetTag; split <;> rfl
@[simp] theorem physGet_setTag (q : Nat) : physGet (physSetTag s p t m) q = physGet s q := by unfold physSetTag; split <;> rfl
@[simp] theorem physTag_put (bs : List Byte) (q : Nat) : physTag (physPut s p bs) q = physTag s q := by simp [physTag]
end

theorem physTag_setTag {s : State} (p : Nat) (t : Tag) (tm : BitVec 5) (h : s.Canonical) (q : Nat) :
    physTag (physSetTag s p t tm) q = if tm ≠ 0 ∧ blockOf q = blockOf p then mergeTag (physTag s q) t tm else physTag s q := by
  unfold physSetTag
  by_cases hm : tm = 0
  · simp [hm]
  · rw [if_neg hm]
    by_cases hq : blockOf q = blockOf p
    · simp only [physTag, hq]
      rw [if_pos ⟨hm, trivial⟩, tagGet_set _ _ _ h.2.2]
    · simp only [physTag]
      rw [if_neg fun e => hq e.2, tagGet_set_other _ _ hq h.2.2]

/-- A refreshed slice of L2 is all that changes. -/
theorem l2Refresh_keeps (g phys : Nat) (s : State) : ∃ cs, l2Refresh g phys s = { s with clusters := cs } := by
  unfold l2Refresh
  split
  · exact ⟨_, rfl⟩
  · exact ⟨s.clusters, rfl⟩

/-- Bytes put at the start of a block, and its tag bytes where the bytes fill it. -/
theorem wrote_put {s : State} {p : Nat} {bs : List Byte} {tag : Tag} {tm : BitVec 5} (h : s.Canonical) (hp : p % 64 = 0)
    (hk : ∀ i < bs.length, kindOf (p + i) ≠ 3) (htag : tm = 0 ∨ bs.length = 64) :
    Wrote p bs tag tm s (physSetTag (physPut s p bs) p tag tm) where
  core := by simp
  cid := by simp
  pkg := by simp
  ecc := by simp
  net := by simp
  canonical := physSetTag_canonical _ _ _ (physPut_canonical _ _ h)
  byte q := by rw [physGet_setTag, physGet_put hk h]
  tagged q := by
    rw [physTag_setTag _ _ _ (physPut_canonical _ _ h), physTag_put]
    obtain rfl | hl := htag
    · simp
    · have block : blockOf q = blockOf p ↔ p ≤ q ∧ q < p + bs.length := by
        simp only [blockOf, hl]
        omega
      exact ite_congr (propext (and_congr_right fun _ => block)) (fun _ => rfl) fun _ => rfl

/-- What L2 holds is no part of it. -/
theorem Wrote.with_clusters {p : Nat} {bs : List Byte} {tag : Tag} {tm : BitVec 5} {s t : State} (h : Wrote p bs tag tm s t)
    (cs : List (Nat × Cluster)) : Wrote p bs tag tm s { t with clusters := cs } :=
  ⟨h.core, h.cid, h.pkg, h.ecc, h.net, h.canonical, h.byte, h.tagged⟩

theorem Wrote.append {p p' : Nat} {xs ys : List Byte} {tag : Tag} {tm : BitVec 5} {s t u : State} (hx : Wrote p xs tag tm s t)
    (hy : Wrote p' ys tag tm t u) (hp : p' = p + xs.length ∨ ys = []) : Wrote p (xs ++ ys) tag tm s u where
  core := hy.core.trans hx.core
  cid := hy.cid.trans hx.cid
  pkg := hy.pkg.trans hx.pkg
  ecc := hy.ecc.trans hx.ecc
  net := hy.net.trans hx.net
  canonical := hy.canonical
  byte q := by
    rw [hy.byte, hx.byte, List.length_append]
    obtain rfl | rfl := hp
    · by_cases hq : q < p + xs.length
      · rw [if_neg (by omega)]
        by_cases hp : p ≤ q
        · rw [if_pos (by omega), if_pos (by omega), getD_append_near (by omega)]
        · rw [if_neg (by omega), if_neg (by omega)]
      · rw [if_neg (c := p ≤ q ∧ q < p + xs.length) (by omega)]
        by_cases he : q < p + xs.length + ys.length
        · rw [if_pos (by omega), if_pos (by omega), getD_append_far (by omega), Nat.sub_sub]
        · rw [if_neg (by omega), if_neg (by omega)]
    · simp only [List.length_nil, Nat.add_zero, List.append_nil]
      rw [if_neg (by omega)]
  tagged q := by
    rw [hy.tagged, hx.tagged, List.length_append]
    obtain rfl | rfl := hp
    · by_cases hq : q < p + xs.length
      · rw [if_neg (by omega)]
        exact ite_congr (propext (and_congr_right fun _ => by omega)) (fun _ => rfl) fun _ => rfl
      · rw [if_neg (c := tm ≠ 0 ∧ p ≤ q ∧ q < p + xs.length) (by omega)]
        exact ite_congr (propext (and_congr_right fun _ => by omega)) (fun _ => rfl) fun _ => rfl
    · simp only [List.length_nil, Nat.add_zero]
      rw [if_neg (by omega)]

theorem Wrote.nil {p : Nat} {tag : Tag} {tm : BitVec 5} {s : State} (h : s.Canonical) : Wrote p [] tag tm s s :=
  ⟨rfl, rfl, rfl, rfl, rfl, h, fun q => (if_neg (by simp)).symm, fun q => (if_neg (by simp)).symm⟩

theorem Wrote.ownPlace {p : Nat} {bs : List Byte} {tag : Tag} {tm : BitVec 5} {s t : State} (h : Wrote p bs tag tm s t) (a : Word) :
    t.ownPlace a = s.ownPlace a := by
  rw [State.ownPlace, State.ownPlace, scratch, scratch, h.cid, h.pkg]

theorem State.OwnReady.wrote {p : Nat} {bs : List Byte} {tag : Tag} {tm : BitVec 5} {s t : State} (hs : s.OwnReady)
    (h : Wrote p bs tag tm s t) : t.OwnReady where
  cid_lt := h.cid ▸ hs.cid_lt
  ecc_nil := h.ecc.trans hs.ecc_nil
  turn := by
    obtain ⟨htouch, hposted⟩ := hs.turn
    refine ⟨h.core ▸ htouch, ?_⟩
    rw [← hposted, postedAhead, postedAhead, scratch, scratch, h.core, h.net, h.cid, h.pkg]
  canonical := h.canonical
  lines_nil := h.core ▸ hs.lines_nil

section
variable {s : State} {a : Word} {bs : List Byte} {tag : Tag} {tm : BitVec 5}

theorem settleCommitted_nil (h : s.core.lines = []) : settleCommitted s = .ok ((), s) := by
  have same : ({ s.core with lines := s.core.lines.map fun l => { l with unc := false } } : Core) = s.core := by
    have empty : s.core.lines.map (fun l : Line => { l with unc := false }) = s.core.lines := by
      rw [h]
      rfl
    rw [empty]
  rw [settleCommitted, change_act, State.now, same]

/-- One block written after the commit. -/
theorem State.OwnReady.writeCommitted_own (h : s.OwnReady) (ha : InOwn a bs.length) (hal : a.toNat % 64 = 0) (h0 : 0 < bs.length)
    (hl : bs.length ≤ 64) (htag : tm = 0 ∨ bs.length = 64) :
    ∃ t, writeCommitted a bs tag tm s = .ok ((), t) ∧ Wrote (s.ownPlace a) bs tag tm s t := by
  have hmod := ha.ownPlace_mod hal s
  have hblk : blockOf (s.ownPlace a) = s.ownPlace a := by
    rw [blockOf]
    omega
  have hkind : ∀ i < bs.length, kindOf (s.ownPlace a + i) = 1 := fun i hi => ha.kindOf_eq h.cid_lt hi
  have hkind0 : kindOf (s.ownPlace a) = 1 := by simpa using hkind 0 h0
  obtain ⟨cs, hcs⟩ := l2Refresh_keeps (clusterOf s.cid) (s.ownPlace a) (physSetTag (physPut s (s.ownPlace a) bs) (s.ownPlace a) tag tm)
  have wrote := (wrote_put (tag := tag) (tm := tm) h.canonical hmod (fun i hi => by rw [hkind i hi]; decide) htag).with_clusters cs
  have store : writeBlock (.sram (s.ownPlace a) true a) (placed (a.toNat % 64) bs) (byteMask (a.toNat % 64) bs.length) tag tm s =
      .ok ((), { physSetTag (physPut s (s.ownPlace a) bs) (s.ownPlace a) tag tm with clusters := cs }) := by
    rw [writeBlock, homeStore, h.reachable_own ha h0, hblk, hal, homeMerge_placed h.ecc_nil (by omega) hl, hcs]
    simp [mergeRefused, h.ecc_nil, afterWindow, ha.spaceOf_eq]
  refine ⟨_, ?_, wrote⟩
  rw [writeCommitted, bind_of_ok (h.target_eq ha h0 .store .update true), bind_of_ok store]
  exact settleCommitted_nil (h.wrote wrote).lines_nil

/-- The blocks of a run, from block `j` on. -/
theorem State.OwnReady.each_writeCommitted (h : s.OwnReady) (ha : InOwn a bs.length) (hal : a.toNat % 64 = 0)
    (htag : tm = 0 ∨ bs.length % 64 = 0) (c j : Nat) (hj : j + c = (bs.length + 63) / 64) :
    ∃ t, each (fun k => writeCommitted (nthBlock a k) ((bs.drop (64 * k)).take 64) tag tm) (List.range' j c) s = .ok ((), t) ∧
      Wrote (s.ownPlace a + 64 * j) (bs.drop (64 * j)) tag tm s t := by
  induction c generalizing j s with
  | zero =>
    rw [List.drop_eq_nil_of_le (by omega)]
    exact ⟨s, rfl, .nil h.canonical⟩
  | succ c ih =>
    have len : ((bs.drop (64 * j)).take 64).length = min 64 (bs.length - 64 * j) := by simp
    have inside : 64 * j + ((bs.drop (64 * j)).take 64).length ≤ bs.length := by omega
    have own : InOwn (nthBlock a j) ((bs.drop (64 * j)).take 64).length := (ha.shift inside).1
    have place : s.ownPlace (nthBlock a j) = s.ownPlace a + 64 * j := ha.ownPlace_add inside s
    have aligned : (nthBlock a j).toNat % 64 = 0 := by
      rw [nthBlock, BitVec.toNat_add, BitVec.toNat_ofNat]
      omega
    obtain ⟨t, ht, wt⟩ := h.writeCommitted_own (tag := tag) own aligned (by omega) (by omega) (htag.imp_right fun _ => by omega)
    obtain ⟨u, hu, wu⟩ := ih (h.wrote wt) (j + 1) (by omega)
    rw [place] at wt
    rw [wt.ownPlace] at wu
    have next : s.ownPlace a + 64 * (j + 1) = s.ownPlace a + 64 * j + ((bs.drop (64 * j)).take 64).length ∨
        bs.drop (64 * (j + 1)) = [] := by
      rw [List.drop_eq_nil_iff]
      omega
    have whole := wt.append wu next
    rw [Nat.mul_succ, ← List.drop_drop, List.take_append_drop] at whole
    refine ⟨u, ?_, whole⟩
    rw [List.range'_succ, each_cons, bind_of_ok ht]
    exact hu

/-- A run of blocks written after the commit. -/
theorem State.OwnReady.writeRange_own (h : s.OwnReady) (ha : InOwn a bs.length) (hal : a.toNat % 64 = 0)
    (htag : tm = 0 ∨ bs.length % 64 = 0) :
    ∃ t, writeRange a bs tag tm s = .ok ((), t) ∧ Wrote (s.ownPlace a) bs tag tm s t := by
  rw [writeRange, List.range_eq_range']
  simpa using h.each_writeCommitted (tag := tag) ha hal htag _ 0 (Nat.zero_add _)
end

/-! ### What a write leaves to be read -/

section
variable {p : Nat} {bs : List Byte} {tag : Tag} {tm : BitVec 5} {s t : State}

theorem Wrote.bytes_within (h : Wrote p bs tag tm s t) {j m : Nat} (hj : j + m ≤ bs.length) :
    physBytes t (p + j) m = (bs.drop j).take m := by
  refine List.ext_getElem (by simp; omega) fun i hi _ => ?_
  have hi : i < m := by simpa using hi
  simp only [physBytes, List.getElem_map, List.getElem_range, List.getElem_take, List.getElem_drop]
  rw [h.byte, if_pos (by omega), show p + j + i - p = j + i by omega, getD_of_lt (by omega)]

theorem Wrote.bytes_apart (h : Wrote p bs tag tm s t) {q n : Nat} (hq : q + n ≤ p ∨ p + bs.length ≤ q) :
    physBytes t q n = physBytes s q n :=
  List.map_congr_left fun k hk => by
    have := List.mem_range.1 hk
    rw [h.byte, if_neg (by omega)]

theorem Wrote.tag_apart (h : Wrote p bs tag tm s t) {q : Nat} (hq : q < p ∨ p + bs.length ≤ q ∨ tm = 0) :
    physTag t q = physTag s q := by
  rw [h.tagged, if_neg fun e => by
    obtain ⟨hm, hp, hl⟩ := e
    exact hq.elim (by omega) fun hq => hq.elim (by omega) hm]

end

theorem f32Bytes_length (xs : List Nat) : (f32Bytes xs).length = 4 * xs.length := by
  induction xs with
  | nil => rfl
  | cons x xs ih =>
    rw [f32Bytes, List.flatMap_cons, List.length_append, leBytes_length, ← f32Bytes, ih, List.length_cons]
    omega

theorem f32Bytes_drop_take {xs : List Nat} {i : Nat} (hi : i < xs.length) :
    ((f32Bytes xs).drop (4 * i)).take 4 = leBytes 4 (xs.getD i 0) := by
  induction xs generalizing i with
  | nil => exact absurd hi (Nat.not_lt_zero i)
  | cons x xs ih =>
    have front : (f32Bytes (x :: xs)) = leBytes 4 x ++ f32Bytes xs := List.flatMap_cons
    cases i with
    | zero => rw [front, Nat.mul_zero, List.drop_zero, List.take_left' (leBytes_length 4 x), List.getD_cons_zero]
    | succ i =>
      rw [front, Nat.mul_succ, Nat.add_comm, ← List.drop_drop, List.drop_left' (leBytes_length 4 x), ih (by simpa using hi),
        List.getD_cons_succ]

/-- A pattern of a list written is read back. -/
theorem Wrote.f32 {p : Nat} {xs : List Nat} {tag : Tag} {tm : BitVec 5} {s t : State} (h : Wrote p (f32Bytes xs) tag tm s t) {i : Nat}
    (hi : i < xs.length) (hx : xs.getD i 0 < 2 ^ 32) : physNat t (p + 4 * i) 4 = xs.getD i 0 := by
  have len := f32Bytes_length xs
  rw [physNat, h.bytes_within (by omega), f32Bytes_drop_take hi, leValue_bytes, Nat.mod_eq_of_lt hx]

theorem physNat_lt (s : State) (p n : Nat) : physNat s p n < 2 ^ (8 * n) := by
  have := leValue_lt (physBytes s p n)
  rwa [physBytes_length] at this

/-- All tag bytes of a tag replaced. -/
theorem mergeTag_all (old new : Tag) : mergeTag old new (BitVec.allOnes 5) = new := by
  have all : tagMask (BitVec.allOnes 5) = BitVec.allOnes 40 := by decide
  rw [mergeTag, all, BitVec.not_allOnes, BitVec.and_zero, BitVec.zero_or, BitVec.and_allOnes]

/-! ### Results fit their format (R34, R39) -/

theorem roundShift_bounds (rm : Rm) (neg : Bool) (m k : Nat) :
    m / 2 ^ k ≤ (roundShift rm neg m k).1 ∧ (roundShift rm neg m k).1 ≤ m / 2 ^ k + 1 := by
  have choice : ∀ (up : Bool) (q : Nat), q ≤ (if up then q + 1 else q) ∧ (if up then q + 1 else q) ≤ q + 1 := fun up q => by
    cases up
    · exact ⟨Nat.le_refl q, Nat.le_succ q⟩
    · exact ⟨Nat.le_succ q, Nat.le_refl _⟩
  exact choice _ _

/-- A rounded significand has at most `b + 1` bits, or is the next power of two by a carry. -/
theorem roundAt_le {m b : Nat} {e lsb : Int} (rm : Rm) (neg : Bool) (h : expOf m e - b ≤ lsb) :
    (roundAt rm neg m e lsb).1 ≤ 2 ^ (b + 1) := by
  have hm : m < 2 ^ (m.log2 + 1) := Nat.lt_log2_self
  rw [expOf] at h
  rw [roundAt]
  split
  · calc m * 2 ^ (e - lsb).toNat ≤ 2 ^ (m.log2 + 1) * 2 ^ (e - lsb).toNat := Nat.mul_le_mul_right _ (Nat.le_of_lt hm)
      _ = 2 ^ (m.log2 + 1 + (e - lsb).toNat) := (Nat.pow_add ..).symm
      _ ≤ 2 ^ (b + 1) := Nat.pow_le_pow_right Nat.two_pos (by omega)
  · have hq : m / 2 ^ (lsb - e).toNat < 2 ^ (b + 1) := by
      rw [Nat.div_lt_iff_lt_mul (Nat.two_pow_pos _), ← Nat.pow_add]
      exact Nat.lt_of_lt_of_le hm (Nat.pow_le_pow_right Nat.two_pos (by omega))
    exact Nat.le_trans (roundShift_bounds rm neg m _).2 hq

/-- A normal result keeps its leading bit. -/
theorem le_roundAt {m b : Nat} {e lsb : Int} (rm : Rm) (neg : Bool) (hm : m ≠ 0) (h : lsb = expOf m e - b) :
    2 ^ b ≤ (roundAt rm neg m e lsb).1 := by
  have hm : 2 ^ m.log2 ≤ m := Nat.log2_self_le hm
  rw [expOf] at h
  rw [roundAt]
  split
  · calc 2 ^ b = 2 ^ m.log2 * 2 ^ (e - lsb).toNat := by rw [← Nat.pow_add]; congr 1; omega
      _ ≤ m * 2 ^ (e - lsb).toNat := Nat.mul_le_mul_right _ hm
  · refine Nat.le_trans ?_ (roundShift_bounds rm neg m _).1
    rw [Nat.le_div_iff_mul_le (Nat.two_pow_pos _), ← Nat.pow_add]
    exact Nat.le_trans (Nat.pow_le_pow_right Nat.two_pos (by omega)) hm

theorem f32_pattern_lt {neg : Bool} {M : Nat} {lsb : Int} (hM : M ≤ 2 ^ 24) (hl : lsb ≤ 104) : fmtF32.pattern neg M lsb < 2 ^ 32 := by
  have sign : (if neg then fmtF32.signBit else 0) ≤ 2 ^ 31 := by cases neg <;> decide
  have exponent : (lsb + (23 : Nat) + (127 : Nat) - 1).toNat ≤ 253 := by omega
  have := Nat.mul_le_mul_right (2 ^ 23) exponent
  show (if neg then fmtF32.signBit else 0) + ((lsb + (23 : Nat) + (127 : Nat) - 1).toNat * 2 ^ 23 + M) * 2 ^ 0 < 2 ^ 32
  omega

/-- A normal significand above the largest exponent of F32 overflows. -/
theorem f32_lsb_le {M : Nat} {lsb : Int} (hM : 2 ^ 23 ≤ M) (h : dyadicLt fmtF32.maxSig (fmtF32.emax - fmtF32.mbits) M lsb ≠ true) :
    lsb ≤ 104 := by
  refine Int.not_lt.1 fun hl => ?_
  have top : fmtF32.emax - fmtF32.mbits = 104 := by decide
  have sig : fmtF32.maxSig = 2 ^ 24 - 1 := by decide
  obtain ⟨k, hk⟩ : ∃ k, (lsb - 104).toNat = k + 1 := ⟨(lsb - 104).toNat - 1, by omega⟩
  rw [top, sig, dyadicLt, if_pos (by omega), ne_eq, decide_eq_true_eq, Nat.not_lt, hk, Nat.pow_succ, ← Nat.mul_assoc] at h
  have := Nat.le_mul_of_pos_right M (Nat.two_pow_pos k)
  omega

/-- A value rounded to F32 is a pattern of 32 bits. -/
theorem f32_round_lt (neg : Bool) (m : Nat) (e : Int) : (fmtF32.round .rne false neg m e).1 < 2 ^ 32 := by
  have bits : ((fmtF32.mbits : Nat) : Int) = 23 := rfl
  have low : fmtF32.emin = -126 := by decide
  unfold Fmt.round
  split
  · cases neg <;> decide
  · next hm =>
    dsimp only
    split
    · cases neg <;> decide
    · next hover =>
      refine f32_pattern_lt (roundAt_le .rne neg (b := 23) (by omega)) ?_
      by_cases hn : -126 ≤ expOf m e
      · exact f32_lsb_le (le_roundAt .rne neg hm (by omega)) hover
      · omega

theorem f32_deliver_lt (x : Num × Fl) : (fmtF32.deliver .rne false x).1 < 2 ^ 32 := by
  obtain ⟨v, fl⟩ := x
  cases v with
  | nan _ => exact (by decide : fmtF32.nanBits < 2 ^ 32)
  | inf n => exact (by cases n <;> decide : fmtF32.infBits n < 2 ^ 32)
  | fin n m e => exact f32_round_lt n m e

theorem f32_fma_lt (negProduct negAddend : Bool) (a b d : Nat) : (fmtF32.fma .rne negProduct negAddend a b d).1 < 2 ^ 32 :=
  f32_deliver_lt _

theorem optMax_lt (xs : List Nat) : optMax xs < 2 ^ 32 := by
  unfold optMax
  split
  · decide
  · refine Nat.lt_trans ?_ (show 2 ^ 31 < 2 ^ 32 by decide)
    refine List.foldlRecOn _ max (motive := (· < 2 ^ 31)) (by decide) fun b hb x hx => Nat.max_lt.2 ⟨hb, ?_⟩
    obtain ⟨y, -, rfl⟩ := List.mem_map.1 hx
    exact Nat.mod_lt _ (by decide)

/-! ### The skip flag (R401, R407) -/

/-- SKIPSET commits, and sets the flag for the step that its operand names. -/
theorem execSkipset_calm {o : RArgs} {s : State} (hc : s.core.Calm) (hs : s.core.Settled) (ha : s.core.Full o.a) :
    execSkipset o s = .next (setSkip ((s.core.s o.a.toNat).setWidth 32) true (s.now fun c => (commitRegion c).renewed)) := by
  apply finish_ok
  have calm : (setSkip ((s.core.s o.a.toNat).setWidth 32) true (s.now commitRegion)).core.Calm := calm_commit hc
  rw [actSkipset, bind_of_ok (readS_full _ ha), bind_of_ok (commitPoint_settled hs), bind_of_ok (changeS_act _ _), retireCommit_calm calm]
  rfl

/-- SKIPCLR commits, and clears the flag of the step that its operand names. -/
theorem execSkipclr_calm {o : RArgs} {s : State} (hc : s.core.Calm) (hs : s.core.Settled) (ha : s.core.Full o.a) :
    execSkipclr o s = .next (if s.pkg.skipStep = (s.core.s o.a.toNat).setWidth 32
      then setSkip s.pkg.skipStep false (s.now fun c => (commitRegion c).renewed) else s.now fun c => (commitRegion c).renewed) := by
  apply finish_ok
  rw [actSkipclr, bind_of_ok (readS_full _ ha), bind_of_ok (commitPoint_settled hs), bind_of_ok (changeS_act _ _), now_pkg]
  split
  · have calm : (setSkip s.pkg.skipStep false (s.now commitRegion)).core.Calm := calm_commit hc
    rw [retireCommit_calm calm]
    rfl
  · have calm : (s.now commitRegion).core.Calm := calm_commit hc
    rw [retireCommit_calm calm]
    rfl

/-! ### An update instruction up to its effect (R402 to R404) -/

/-- The group descriptor at an address. -/
def State.optGroup (s : State) (a : Word) : OptGroup :=
  let d (k : Nat) : Word := physWord s (s.ownPlace a + 8 * k)
  ⟨d 0, d 1, d 2, d 3, d 4, d 5⟩

theorem groupOf_bytes (s : State) (a : Word) : groupOf (physBytes s (s.ownPlace a) 64) = s.optGroup a := by
  have field : ∀ k < 6, BitVec.ofNat 64 (leValue (((physBytes s (s.ownPlace a) 64).drop (8 * k)).take 8)) =
      physWord s (s.ownPlace a + 8 * k) := fun k hk => by
    rw [physBytes_drop_take s _ (by omega), physWord, physNat]
  simp only [groupOf, State.optGroup]
  rw [field 0 (by omega), field 1 (by omega), field 2 (by omega), field 3 (by omega), field 4 (by omega), field 5 (by omega)]

/-- The ranges that a descriptor names are ranges of the own scratchpad, at blocks. -/
structure OptGroup.Placed (d : OptGroup) : Prop where
  p : InOwn d.p 8192
  g : InOwn d.g 8192
  m : InOwn d.m 2048
  v : InOwn d.v 2048
  ms : InOwn d.ms 8
  st : InOwn d.st 16448
  aligned : ∀ x ∈ [d.p, d.g, d.m, d.v, d.ms, d.st], x.toNat % 64 = 0

/-- An update instruction may run to its end at once, by the descriptor at an address. -/
structure State.OptReady (s : State) (a : Word) : Prop extends s.OwnReady where
  calm : s.core.Calm
  settled : s.core.Settled
  image_nil : s.core.image = []
  unposted : ∀ e ∈ s.core.outbox, e.posts (homeOf (scratch s s.cid 0)) = false
  desc : InOwn a 64
  desc_aligned : a.toNat % 64 = 0
  placed : (s.optGroup a).Placed

/-- The state after the commit of an update instruction, which keeps its descriptor's bytes until it retires. -/
def State.optCommitted (s : State) (a : Word) : State :=
  s.now fun c => commitRegion { c with image := physBytes s (s.ownPlace a) 64 }

section
variable {s : State} {a : Word}

theorem State.OwnReady.keep_image (h : s.OwnReady) (bs : List Byte) : (s.now fun c => { c with image := bs }).OwnReady :=
  ⟨h.cid_lt, h.ecc_nil, h.turn, h.canonical, h.lines_nil⟩

theorem posts_commitRegion (c : Core) (home : Nat) (h : ∀ e ∈ c.outbox, e.posts home = false) :
    ∀ e ∈ (commitRegion c).outbox, e.posts home = false := fun e he => by
  obtain ⟨e', he', rfl⟩ := List.mem_map.1 he
  split
  · exact h e' he'
  · exact h e' he'

/-- Where the region commits no posted atomic to it, the own scratchpad stays ready. -/
theorem State.OptReady.committed_ready (h : s.OptReady a) : (s.optCommitted a).OwnReady where
  cid_lt := h.cid_lt
  ecc_nil := h.ecc_nil
  turn := by
    obtain ⟨touch, posted⟩ := h.turn
    refine ⟨touch, ?_⟩
    have net : s.net.any (Transit.posts s.cid (homeOf (scratch s s.cid 0))) = false := (Bool.or_eq_false_iff.1 posted).2
    refine Bool.or_eq_false_iff.2 ⟨List.any_eq_false.2 fun e he => ?_, net⟩
    have unposted : e.posts (homeOf (scratch s s.cid 0)) = false :=
      posts_commitRegion { s.core with image := physBytes s (s.ownPlace a) 64 } _ h.unposted e he
    exact fun posts => Bool.false_ne_true (unposted.symm.trans (Bool.and_eq_true_iff.1 posts).2)
  canonical := h.canonical
  lines_nil := by
    show s.core.lines.map _ = []
    rw [h.lines_nil]
    rfl

theorem State.OptReady.readGroup_own (h : s.OptReady a) :
    readGroup a s = .ok (s.optGroup a, s.now fun c => { c with image := physBytes s (s.ownPlace a) 64 }) := by
  have ready := h.toOwnReady
  have fields : each (fun x => aligned x 64) [(s.optGroup a).p, (s.optGroup a).g, (s.optGroup a).m, (s.optGroup a).v, (s.optGroup a).ms,
      (s.optGroup a).st] s = .ok ((), s) := each_ok fun x hx => aligned_eq (h.placed.aligned x hx)
  rw [readGroup, bind_of_ok (aligned_eq h.desc_aligned), bind_of_ok h.desc.inOptSpace_eq,
    bind_of_ok (eccFaults_ok (ready.readImageAt_own h.desc (by decide)))]
  dsimp only
  rw [groupOf_bytes, bind_of_ok fields, bind_of_ok (orderCommit_ok (ready.orderRun_own h.desc (by decide))), bind_of_ok (change_act _ _)]
  rfl

/-- AN UPDATE INSTRUCTION whose checks hold commits, has its effect and retires. -/
theorem State.OptReady.optInsn_own {t : State} {checks effect : OptGroup → Act Unit} {inputs : OptGroup → List (Word × Nat)}
    (h : s.OptReady a) (hchecks : ∀ u : State, u.OwnReady → checks (s.optGroup a) u = .ok ((), u))
    (hinputs : ∀ x ∈ inputs (s.optGroup a), InOwn x.1 x.2 ∧ 0 < x.2)
    (heffect : effect (s.optGroup a) (s.optCommitted a) = .ok ((), t)) (hcore : t.core = (s.optCommitted a).core) :
    optInsn a checks inputs effect s = .ok ((), t.now Core.renewed) := by
  have empty : s.core.image.isEmpty = true := by rw [h.image_nil]; rfl
  have commits : commitPoint (s.now fun c => { c with image := physBytes s (s.ownPlace a) 64 }) = .ok ((), s.optCommitted a) :=
    commitPoint_settled h.settled
  have kept : groupOf (s.optCommitted a).core.image = s.optGroup a := groupOf_bytes s a
  have turns : each (fun (x : Word × Nat) => orderRun x.1 x.2) (inputs (s.optGroup a)) (s.optCommitted a) = .ok ((), s.optCommitted a) :=
    each_ok fun x hx => h.committed_ready.orderRun_own (hinputs x hx).1 (hinputs x hx).2
  have calm : t.core.Calm := hcore ▸ calm_commit h.calm
  rw [optInsn, bind_of_ok (ask_act _ s)]
  dsimp only
  rw [if_pos empty, bind_of_ok h.readGroup_own, bind_of_ok (hchecks _ (h.toOwnReady.keep_image _)), bind_of_ok commits,
    bind_of_ok (ask_act _ _), kept]
  refine orWait_ok ?_
  rw [bind_of_ok turns, bind_of_ok heffect, retireCommit_calm calm]
end

section
variable {s t : State} {o : RArgs}

/-- OPTA of a range of the own scratchpad comes to its effect. -/
theorem execOpta_own (h : s.OptReady (s.core.s o.a.toNat)) (ha : s.core.Full o.a) (hb : s.core.Full o.b) (hH : InOwn s.core.optH 64)
    (hH8 : s.core.optH.toNat % 8 = 0)
    (heffect : optaEffect s.core.optH ((s.core.s o.b.toNat).setWidth 32) (s.optGroup (s.core.s o.a.toNat))
      (s.optCommitted (s.core.s o.a.toNat)) = .ok ((), t))
    (hcore : t.core = (s.optCommitted (s.core.s o.a.toNat)).core) : execOpta o s = .next (t.now Core.renewed) := by
  have d := h.placed
  apply finish_ok
  rw [actOpta, bind_of_ok (readS_full _ ha), bind_of_ok (readS_full _ hb), bind_of_ok (ask_act _ s)]
  refine h.optInsn_own (fun u hu => ?_) (fun x hx => ?_) heffect hcore
  · rw [bind_of_ok (hu.checkRead_own d.p (by decide)), bind_of_ok (hu.checkUpdate_own d.p (by decide) _),
      bind_of_ok (hu.checkRead_own d.g (by decide)), bind_of_ok (hu.checkRead_own d.m (by decide)),
      bind_of_ok (hu.checkRead_own d.v (by decide)), bind_of_ok (hu.checkRead_own d.ms (by decide)),
      bind_of_ok (hu.checkUpdate_own d.st (by decide) _), bind_of_ok (aligned_eq hH8),
      hu.checkRead_own hH (by decide)]
  · simp only [List.mem_cons, List.not_mem_nil, or_false] at hx
    obtain rfl | rfl | rfl | rfl | rfl | rfl := hx
    · exact ⟨hH, by simp⟩
    · exact ⟨d.p, by simp⟩
    · exact ⟨d.g, by simp⟩
    · exact ⟨d.m, by simp⟩
    · exact ⟨d.v, by simp⟩
    · exact ⟨d.ms, by simp⟩

/-- OPTW of a range of the own scratchpad comes to its effect. -/
theorem execOptw_own (h : s.OptReady (s.core.s o.a.toNat)) (ha : s.core.Full o.a) (hb : s.core.Full o.b)
    (heffect : optwEffect ((s.core.s o.b.toNat).setWidth 32) (s.optGroup (s.core.s o.a.toNat))
      (s.optCommitted (s.core.s o.a.toNat)) = .ok ((), t))
    (hcore : t.core = (s.optCommitted (s.core.s o.a.toNat)).core) : execOptw o s = .next (t.now Core.renewed) := by
  have d := h.placed
  apply finish_ok
  rw [actOptw, bind_of_ok (readS_full _ ha), bind_of_ok (readS_full _ hb)]
  refine h.optInsn_own (fun u hu => ?_) (fun x hx => ?_) heffect hcore
  · rw [bind_of_ok (hu.checkNamed_own d.p (by decide)), bind_of_ok (hu.checkNamed_own d.g (by decide)),
      bind_of_ok (hu.checkUpdate_own d.m (by decide) _), bind_of_ok (hu.checkUpdate_own d.v (by decide) _),
      bind_of_ok (hu.checkUpdate_own d.ms (by decide) _), hu.checkRead_own d.st (by decide)]
  · obtain rfl := List.mem_singleton.1 hx
    exact ⟨d.st, by simp⟩
end

/-! ### The effects (R405, R406) -/

theorem getD_map_range {α : Type} (f : Nat → α) (x : α) {n i : Nat} (h : i < n) : ((List.range n).map f).getD i x = f i := by
  rw [getD_of_lt (by simpa using h), List.getElem_map, List.getElem_range]

/-- An F32 word of a range. -/
def State.word32 (s : State) (a : Word) (i : Nat) : Nat := physNat s (s.ownPlace a + 4 * i) 4

theorem State.word32_lt (s : State) (a : Word) (i : Nat) : s.word32 a i < 2 ^ 32 := physNat_lt s _ 4

/-- A code of a range. -/
def State.codeAt (s : State) (a : Word) (i : Nat) : Nat := physNat s (s.ownPlace a + 1 * i) 1

theorem State.OwnReady.readWords_own {s : State} {a : Word} {n : Nat} (h : s.OwnReady) (ha : InOwn a (4 * n)) (hn : 0 < n) :
    readValues 4 a n s = .ok ((List.range n).map (s.word32 a), s) :=
  h.readValues_own ha (by omega)

theorem State.OwnReady.readCodes_own {s : State} {a : Word} {n : Nat} (h : s.OwnReady) (ha : InOwn a n) (hn : 0 < n) :
    readValues 1 a n s = .ok ((List.range n).map (s.codeAt a), s) :=
  h.readValues_own ((Nat.one_mul n).symm ▸ ha) (by omega)

/-- Element `i` of OPTA, from what it reads: the new parameter, m and v. -/
def State.optaAt (s : State) (hp : Word) (d : OptGroup) (i : Nat) : Nat × Nat × Nat :=
  optElement s.core (hyperOf ((List.range 16).map (s.word32 hp))) (s.word32 d.ms 0) (s.word32 d.ms 1) (s.word32 d.p i) (s.word32 d.g i)
    (s.codeAt d.m i) (s.codeAt d.v i)

/-- The elements of OPTA, in order. -/
def State.optaAll (s : State) (hp : Word) (d : OptGroup) : List (Nat × Nat × Nat) := (List.range 2048).map (s.optaAt hp d)

/-- The patterns that OPTA stages: m, v, and their largest magnitudes. -/
def State.optaStaged (s : State) (hp : Word) (d : OptGroup) : List Nat :=
  let m := (s.optaAll hp d).map (·.2.1)
  let v := (s.optaAll hp d).map (·.2.2)
  m ++ v ++ [optMax m, optMax v]

/-- The codes that OPTW gives the staged patterns from an address on, under their largest magnitude. -/
def State.optwCodes (s : State) (a : Word) (largest : Nat) : List Byte :=
  ((List.range 2048).map (s.word32 a)).map (optCode (s.core.c8.toList.map (·.toNat)) largest)

section
variable {s : State} {d : OptGroup} {hp : Word} {step : BitVec 32}

/-- OPTA reads its inputs, and then nothing is written in a step to skip. -/
theorem State.OwnReady.optaEffect_eq (h : s.OwnReady) (hd : d.Placed) (hH : InOwn hp 64) :
    optaEffect hp step d s = if skips s step then .ok ((), s) else (do
      writeRange d.p (f32Bytes ((s.optaAll hp d).map (·.1))) 0 0
      writeRange d.st (f32Bytes (s.optaStaged hp d)) 0 0 : Act Unit) s := by
  have all : ((List.range 2048).map fun i => optElement (id s.core) (hyperOf ((List.range 16).map (s.word32 hp)))
      (((List.range 2).map (s.word32 d.ms)).getD 0 0) (((List.range 2).map (s.word32 d.ms)).getD 1 0)
      (((List.range 2048).map (s.word32 d.p)).getD i 0) (((List.range 2048).map (s.word32 d.g)).getD i 0)
      (((List.range 2048).map (s.codeAt d.m)).getD i 0) (((List.range 2048).map (s.codeAt d.v)).getD i 0)) = s.optaAll hp d :=
    List.map_congr_left fun i hi => by
      have hi := List.mem_range.1 hi
      rw [getD_map_range _ _ hi, getD_map_range _ _ hi, getD_map_range _ _ hi, getD_map_range _ _ hi, getD_map_range _ _ (by decide),
        getD_map_range _ _ (by decide)]
      rfl
  rw [optaEffect, bind_of_ok (h.readWords_own (n := 16) hH (by decide)),
    bind_of_ok (h.readWords_own (n := 2048) hd.p (by decide)), bind_of_ok (h.readWords_own (n := 2048) hd.g (by decide)),
    bind_of_ok (h.readCodes_own hd.m (by decide)), bind_of_ok (h.readCodes_own hd.v (by decide)),
    bind_of_ok (h.readWords_own (n := 2) hd.ms (by decide)), bind_of_ok (askS_act _ s)]
  cases skips s step
  · simp only [Bool.not_false, Bool.false_eq_true, if_true, if_false]
    rw [bind_of_ok (ask_act id s), all, State.optaStaged]
  · simp only [Bool.not_true, Bool.false_eq_true, if_true, if_false]
    rfl

/-- OPTW reads what is staged, and then nothing is written in a step to skip. -/
theorem State.OwnReady.optwEffect_eq (h : s.OwnReady) (hd : d.Placed) :
    optwEffect step d s = if skips s step then .ok ((), s) else (do
      writeRange d.m (s.optwCodes d.st (s.word32 d.st 4096)) codeTag (BitVec.allOnes 5)
      writeRange d.v (s.optwCodes (d.st + 8192) (s.word32 d.st 4097)) codeTag (BitVec.allOnes 5)
      writeRange d.ms (f32Bytes [s.word32 d.st 4096, s.word32 d.st 4097]) 0 0 : Act Unit) s := by
  have moments : InOwn (d.st + 8192) (4 * 2048) := (hd.st.shift (j := 8192) (by decide)).1
  have maxima : InOwn (d.st + 16384) (4 * 2) := (hd.st.shift (j := 16384) (by decide)).1
  have first : InOwn d.st (4 * 2048) := hd.st.mono (by decide)
  have place : s.ownPlace (d.st + 16384) = s.ownPlace d.st + 16384 := hd.st.ownPlace_add (j := 16384) (m := 8) (by decide) s
  have largest : ∀ k, s.word32 (d.st + 16384) k = s.word32 d.st (4096 + k) := fun k => by
    rw [State.word32, State.word32, place, Nat.mul_add, Nat.add_assoc]
  have pair : (List.range 2).map (s.word32 (d.st + 16384)) = [s.word32 d.st 4096, s.word32 d.st 4097] := by
    rw [List.range_succ, List.range_one, List.map_append, List.map_singleton, List.map_singleton, largest, largest]
    rfl
  rw [optwEffect, bind_of_ok (h.readWords_own (n := 2048) first (by decide)),
    bind_of_ok (h.readWords_own (n := 2048) moments (by decide)),
    bind_of_ok (h.readWords_own (n := 2) maxima (by decide)), bind_of_ok (askS_act _ s)]
  cases skips s step
  · simp only [Bool.not_false, Bool.false_eq_true, if_true, if_false]
    rw [pair, bind_of_ok (ask_act _ s), State.optwCodes, State.optwCodes, List.getD_cons_zero, List.getD_cons_succ, List.getD_cons_zero]
  · simp only [Bool.not_true, Bool.false_eq_true, if_true, if_false]
    rfl
end

/-! ### The values that OPTA computes (R400, R405) -/

/-- The hyperparameters are the words of their block. -/
theorem hyperOf_words (f : Nat → Nat) :
    let h := hyperOf ((List.range 16).map f)
    h.lr = f (0x08 / 4) ∧ h.b1 = f (0x0C / 4) ∧ h.b2 = f (0x10 / 4) ∧ h.ob1 = f (0x14 / 4) ∧ h.eps = f (0x18 / 4) ∧
      h.wd = f (0x1C / 4) ∧ h.c1 = f (0x20 / 4) ∧ h.c2 = f (0x24 / 4) ∧ h.ob2 = f (0x28 / 4) := by
  have word : ∀ off < 64, ((List.range 16).map f).getD (off / 4) 0 = f (off / 4) := fun off h => getD_map_range f 0 (by omega)
  exact ⟨word 0x08 (by decide), word 0x0C (by decide), word 0x10 (by decide), word 0x14 (by decide), word 0x18 (by decide),
    word 0x1C (by decide), word 0x20 (by decide), word 0x24 (by decide), word 0x28 (by decide)⟩

/-- The entry of a code of a range. -/
theorem tableEntry_codeAt (c : Core) (s : State) (a : Word) (i : Nat) :
    tableEntry c false (s.codeAt a i) = (c.c8.toList.getD (physGet s (s.ownPlace a + i)).toNat 0).toNat := by
  have byte : s.codeAt a i = (physGet s (s.ownPlace a + i)).toNat := by
    rw [State.codeAt, Nat.one_mul, physNat, physBytes, List.range_one, List.map_singleton, Nat.add_zero, leValue, leValue, Nat.mul_zero,
      Nat.add_zero]
  have hb := (physGet s (s.ownPlace a + i)).isLt
  rw [tableEntry, if_neg (by decide), byte, Nat.mod_eq_of_lt hb]

/-! ### The codes that OPTW chooses (R406) -/

/-- A finite F32 pattern is zero if all its bits below the sign are. -/
theorem f32_read_zero {a m : Nat} {n : Bool} {e : Int} (h : fmtF32.read a = .fin n m e) : m = 0 ↔ a % 2 ^ 31 = 0 := by
  have unpadded : a / 2 ^ fmtF32.pad = a := Nat.div_one a
  have special : fmtF32.special = .ieee := rfl
  have ebits : fmtF32.ebits = 8 := rfl
  have mbits : fmtF32.mbits = 23 := rfl
  simp only [Fmt.read, unpadded, special, ebits, mbits] at h
  split at h
  · split at h <;> cases h
  · split at h
    · cases h
    · split at h
      · obtain ⟨-, rfl, -⟩ := Num.fin.inj h
        omega
      · obtain ⟨-, rfl, -⟩ := Num.fin.inj h
        omega

theorem optCode_eq (table : List Nat) (a x : Nat) : optCode table a x =
    if (fmtF32.read a).isNan ∨ fmtF32.read a = .inf false ∨ fmtF32.read a = .inf true then 0
    else BitVec.ofNat 8 (encodeCode table (if a % 2 ^ 31 = 0 then 0 else (fmtF32.div .rne x a).1)).1 := by
  cases e : fmtF32.read a with
  | nan s => simp [optCode, e, Num.isNan]
  | inf n => cases n <;> simp [optCode, e]
  | fin n m x => simp [optCode, e, Num.isNan, f32_read_zero e, f32Div]

/-! ### What OPTA and OPTW come to -/

/-- A step is skipped where the flag is set for it (R402). -/
theorem skips_eq_false {s : State} {x : Word} (h : ¬ (s.pkg.skipFlag = true ∧ s.pkg.skipStep = x.extractLsb' 0 32)) :
    skips s (x.setWidth 32) = false := by
  rw [BitVec.setWidth_eq_extractLsb' (by decide)]
  simpa [skips] using h

theorem skips_eq_true {s : State} {x : Word} (hf : s.pkg.skipFlag = true) (hx : s.pkg.skipStep = x.extractLsb' 0 32) :
    skips s (x.setWidth 32) = true := by
  rw [BitVec.setWidth_eq_extractLsb' (by decide), skips, hf, hx, decide_eq_true rfl]
  rfl

section
variable {s t : State} {a : Word}

theorem InOwn.ownPlace_le {b : Word} {m n k : Nat} (ha : InOwn a m) (hb : InOwn b n) (h : a.toNat + k ≤ b.toNat) (s : State) :
    s.ownPlace a + k ≤ s.ownPlace b := by
  have qa := ha.toNat_eq
  have qb := hb.toNat_eq
  simp only [State.ownPlace, scratch, physAddr]
  omega

/-- What is read of memory does not see the commit. -/
theorem physNat_now (f : Core → Core) (p n : Nat) : physNat (s.now f) p n = physNat s p n := rfl
theorem physGet_now (f : Core → Core) (p : Nat) : physGet (s.now f) p = physGet s p := rfl
theorem physTag_now (f : Core → Core) (p : Nat) : physTag (s.now f) p = physTag s p := rfl
theorem optCommitted_ownPlace (b : Word) : (s.optCommitted a).ownPlace b = s.ownPlace b := rfl
theorem optCommitted_c8 : (s.optCommitted a).core.c8 = s.core.c8 := rfl
theorem optCommitted_word32 (b : Word) : (s.optCommitted a).word32 b = s.word32 b := rfl
theorem optCommitted_codeAt (b : Word) : (s.optCommitted a).codeAt b = s.codeAt b := rfl
theorem optElement_commitRegion (c : Core) (bs : List Byte) : optElement (commitRegion { c with image := bs }) = optElement c := rfl

theorem optCommitted_optaAt (hp : Word) (d : OptGroup) (i : Nat) : (s.optCommitted a).optaAt hp d i = s.optaAt hp d i := by
  rw [State.optaAt, State.optaAt]
  simp only [optCommitted_word32, optCommitted_codeAt]
  exact congrFun (congrFun (congrFun (congrFun (congrFun (congrFun (congrFun (optElement_commitRegion s.core _) _) _) _) _) _) _) _

/-- The core after an update instruction has retired. -/
theorem renewed_core (h : t.core = (s.optCommitted a).core) : (t.now Core.renewed).core = (commitRegion s.core).renewed := by
  rw [now_core, h]
  rfl
end

section
variable {s : State} {d : OptGroup} {hp : Word} {step : BitVec 32}

theorem optaAll_length (s : State) (hp : Word) (d : OptGroup) : (s.optaAll hp d).length = 2048 := by
  rw [State.optaAll, List.length_map, List.length_range]

theorem optaAll_map_getD (s : State) (hp : Word) (d : OptGroup) (f : Nat × Nat × Nat → Nat) {i : Nat} (hi : i < 2048) :
    ((s.optaAll hp d).map f).getD i 0 = f (s.optaAt hp d i) := by
  rw [State.optaAll, List.map_map, getD_map_range _ _ hi]
  rfl

/-- A component of the elements, by the function that gives it. -/
theorem optaAll_map (s : State) (hp : Word) (d : OptGroup) {k : Nat × Nat × Nat → Nat} {f : Nat → Nat}
    (h : ∀ i, k (s.optaAt hp d i) = f i) : (s.optaAll hp d).map k = (List.range 2048).map f := by
  rw [State.optaAll, List.map_map]
  exact List.map_congr_left fun i _ => h i

theorem optaStaged_length (s : State) (hp : Word) (d : OptGroup) : (s.optaStaged hp d).length = 4098 := by
  rw [State.optaStaged, List.length_append, List.length_append, List.length_map, List.length_map, optaAll_length]
  rfl

/-- What OPTA stages: m, then v, then the largest magnitudes. -/
theorem optaStaged_getD (s : State) (hp : Word) (d : OptGroup) :
    (∀ i < 2048, (s.optaStaged hp d).getD i 0 = (s.optaAt hp d i).2.1 ∧
      (s.optaStaged hp d).getD (2048 + i) 0 = (s.optaAt hp d i).2.2) ∧
    (s.optaStaged hp d).getD 4096 0 = optMax ((s.optaAll hp d).map (·.2.1)) ∧
    (s.optaStaged hp d).getD 4097 0 = optMax ((s.optaAll hp d).map (·.2.2)) := by
  have lm : ((s.optaAll hp d).map (·.2.1)).length = 2048 := by rw [List.length_map, optaAll_length]
  have lv : ((s.optaAll hp d).map (·.2.2)).length = 2048 := by rw [List.length_map, optaAll_length]
  have both : ((s.optaAll hp d).map (·.2.1) ++ (s.optaAll hp d).map (·.2.2)).length = 4096 := by rw [List.length_append, lm, lv]
  rw [State.optaStaged]
  refine ⟨fun i hi => ⟨?_, ?_⟩, ?_, ?_⟩
  · rw [getD_append_near (by omega), getD_append_near (by omega), optaAll_map_getD s hp d _ hi]
  · rw [getD_append_near (by omega), getD_append_far (by omega), lm, Nat.add_sub_cancel_left,
      optaAll_map_getD s hp d _ hi]
  · rw [getD_append_far (by omega), both, Nat.sub_self, List.getD_cons_zero]
  · rw [getD_append_far (by omega), both]
    simp only [Nat.reduceSub, List.getD_cons_succ, List.getD_cons_zero]

/-- All that OPTA delivers are patterns of 32 bits. -/
theorem optElement_lt (c : Core) (h : Hyper) (am av p g mc vc : Nat) :
    (optElement c h am av p g mc vc).1 < 2 ^ 32 ∧ (optElement c h am av p g mc vc).2.1 < 2 ^ 32 ∧
      (optElement c h am av p g mc vc).2.2 < 2 ^ 32 := by
  simp only [optElement, f32Fma]
  exact ⟨f32_fma_lt _ _ _ _ _, f32_fma_lt _ _ _ _ _, f32_fma_lt _ _ _ _ _⟩

theorem optaAt_lt (s : State) (hp : Word) (d : OptGroup) (i : Nat) :
    (s.optaAt hp d i).1 < 2 ^ 32 ∧ (s.optaAt hp d i).2.1 < 2 ^ 32 ∧ (s.optaAt hp d i).2.2 < 2 ^ 32 := by
  rw [State.optaAt]
  exact optElement_lt ..

/-- OPTA outside a step to skip: the parameters, and then what is staged, are written. -/
theorem State.OwnReady.optaEffect_writes (h : s.OwnReady) (hd : d.Placed) (hH : InOwn hp 64) (hskip : skips s step = false) :
    ∃ v t, optaEffect hp step d s = .ok ((), t) ∧ Wrote (s.ownPlace d.p) (f32Bytes ((s.optaAll hp d).map (·.1))) 0 0 s v ∧
      Wrote (s.ownPlace d.st) (f32Bytes (s.optaStaged hp d)) 0 0 v t := by
  have lp : (f32Bytes ((s.optaAll hp d).map (·.1))).length = 8192 := by rw [f32Bytes_length, List.length_map, optaAll_length]
  have ls : (f32Bytes (s.optaStaged hp d)).length ≤ 16448 := by
    rw [f32Bytes_length, optaStaged_length]
    decide
  obtain ⟨v, hv, wv⟩ := h.writeRange_own (tag := 0) (tm := 0) (lp.symm ▸ hd.p) (hd.aligned d.p (by simp)) (.inl rfl)
  obtain ⟨t, ht, wt⟩ := (h.wrote wv).writeRange_own (tag := 0) (tm := 0) (hd.st.mono ls) (hd.aligned d.st (by simp)) (.inl rfl)
  rw [wv.ownPlace] at wt
  refine ⟨v, t, ?_, wv, wt⟩
  rw [h.optaEffect_eq hd hH, hskip, if_neg Bool.false_ne_true, bind_of_ok hv, ht]

theorem optwCodes_length (s : State) (a : Word) (largest : Nat) : (s.optwCodes a largest).length = 2048 := by
  rw [State.optwCodes, List.length_map, List.length_map, List.length_range]

theorem optwCodes_getD (s : State) (a : Word) (largest : Nat) {i : Nat} (hi : i < 2048) :
    (s.optwCodes a largest).getD i 0 = optCode (s.core.c8.toList.map (·.toNat)) largest (s.word32 a i) := by
  rw [State.optwCodes, List.map_map, getD_map_range _ _ hi]
  rfl

/-- OPTW outside a step to skip: the codes of m and of v with their tags, and then the largest magnitudes, are written. -/
theorem State.OwnReady.optwEffect_writes (h : s.OwnReady) (hd : d.Placed) (hskip : skips s step = false) :
    ∃ u v t, optwEffect step d s = .ok ((), t) ∧
      Wrote (s.ownPlace d.m) (s.optwCodes d.st (s.word32 d.st 4096)) codeTag (BitVec.allOnes 5) s u ∧
      Wrote (s.ownPlace d.v) (s.optwCodes (d.st + 8192) (s.word32 d.st 4097)) codeTag (BitVec.allOnes 5) u v ∧
      Wrote (s.ownPlace d.ms) (f32Bytes [s.word32 d.st 4096, s.word32 d.st 4097]) 0 0 v t := by
  have lm := optwCodes_length s d.st (s.word32 d.st 4096)
  have lv := optwCodes_length s (d.st + 8192) (s.word32 d.st 4097)
  have ls : (f32Bytes [s.word32 d.st 4096, s.word32 d.st 4097]).length = 8 := f32Bytes_length _
  obtain ⟨u, hu, wu⟩ := h.writeRange_own (tag := codeTag) (tm := BitVec.allOnes 5) (lm.symm ▸ hd.m) (hd.aligned d.m (by simp))
    (.inr (by rw [lm]))
  obtain ⟨v, hv, wv⟩ := (h.wrote wu).writeRange_own (tag := codeTag) (tm := BitVec.allOnes 5) (lv.symm ▸ hd.v)
    (hd.aligned d.v (by simp)) (.inr (by rw [lv]))
  obtain ⟨t, ht, wt⟩ := ((h.wrote wu).wrote wv).writeRange_own (tag := 0) (tm := 0) (ls.symm ▸ hd.ms) (hd.aligned d.ms (by simp))
    (.inl rfl)
  rw [wv.ownPlace, wu.ownPlace] at wt
  rw [wu.ownPlace] at wv
  refine ⟨u, v, t, ?_, wu, wv, wt⟩
  rw [h.optwEffect_eq hd, hskip, if_neg Bool.false_ne_true, bind_of_ok hu, bind_of_ok hv, ht]
end

/-! One element of OPTA as R405 gives it. -/

section
variable (c : Core) (h : Hyper) (am av p g mc vc : Nat)

theorem optElement_m : (optElement c h am av p g mc vc).2.1 =
    (fmtF32.fma .rne false false h.b1 (fmtF32.mul .rne (tableEntry c false mc) am).1 (fmtF32.mul .rne h.ob1 g).1).1 := rfl

theorem optElement_v : (optElement c h am av p g mc vc).2.2 =
    (fmtF32.fma .rne false false h.b2 (fmtF32.mul .rne (tableEntry c false vc) av).1
      (fmtF32.mul .rne h.ob2 (fmtF32.mul .rne g g).1).1).1 := rfl

theorem optElement_p : (optElement c h am av p g mc vc).1 =
    (fmtF32.fma .rne true false h.lr
      (fmtF32.fma .rne false false h.wd p
        (fmtF32.div .rne (fmtF32.mul .rne (optElement c h am av p g mc vc).2.1 h.c1).1
          (fmtF32.add .rne (fmtF32.sqrt .rne (fmtF32.mul .rne (optElement c h am av p g mc vc).2.2 h.c2).1).1 h.eps).1).1).1 p).1 := rfl
end

section
variable (s : State) (hp : Word) (d : OptGroup) (i : Nat)

theorem optaAt_m : (s.optaAt hp d i).2.1 =
    (fmtF32.fma .rne false false (s.word32 hp (0x0C / 4))
      (fmtF32.mul .rne (s.core.c8.toList.getD (physGet s (s.ownPlace d.m + i)).toNat 0).toNat (s.word32 d.ms 0)).1
      (fmtF32.mul .rne (s.word32 hp (0x14 / 4)) (s.word32 d.g i)).1).1 := by
  obtain ⟨-, b1, -, ob1, -⟩ := hyperOf_words (s.word32 hp)
  rw [State.optaAt, optElement_m, b1, ob1, tableEntry_codeAt]

theorem optaAt_v : (s.optaAt hp d i).2.2 =
    (fmtF32.fma .rne false false (s.word32 hp (0x10 / 4))
      (fmtF32.mul .rne (s.core.c8.toList.getD (physGet s (s.ownPlace d.v + i)).toNat 0).toNat (s.word32 d.ms 1)).1
      (fmtF32.mul .rne (s.word32 hp (0x28 / 4)) (fmtF32.mul .rne (s.word32 d.g i) (s.word32 d.g i)).1).1).1 := by
  obtain ⟨-, -, b2, -, -, -, -, -, ob2⟩ := hyperOf_words (s.word32 hp)
  rw [State.optaAt, optElement_v, b2, ob2, tableEntry_codeAt]

theorem optaAt_p : (s.optaAt hp d i).1 =
    (fmtF32.fma .rne true false (s.word32 hp (0x08 / 4))
      (fmtF32.fma .rne false false (s.word32 hp (0x1C / 4)) (s.word32 d.p i)
        (fmtF32.div .rne (fmtF32.mul .rne (s.optaAt hp d i).2.1 (s.word32 hp (0x20 / 4))).1
          (fmtF32.add .rne (fmtF32.sqrt .rne (fmtF32.mul .rne (s.optaAt hp d i).2.2 (s.word32 hp (0x24 / 4))).1).1
            (s.word32 hp (0x18 / 4))).1).1).1
      (s.word32 d.p i)).1 := by
  obtain ⟨lr, -, -, -, eps, wd, c1, c2, -⟩ := hyperOf_words (s.word32 hp)
  rw [State.optaAt, optElement_p, lr, eps, wd, c1, c2]
end

section
variable {s : State} {d : OptGroup} {hp : Word} {step : BitVec 32}

/-- OPTA's effect outside a step to skip, where parameters and staging lie apart (R405). -/
theorem State.OwnReady.optaEffect_values (h : s.OwnReady) (hd : d.Placed) (hH : InOwn hp 64) (hskip : skips s step = false)
    (hapart : d.p.toNat + 8192 ≤ d.st.toNat ∨ d.st.toNat + 16448 ≤ d.p.toNat) :
    ∃ t, optaEffect hp step d s = .ok ((), t) ∧ t.core = s.core ∧
      (∀ i < 2048, physNat t (s.ownPlace d.st + 4 * i) 4 = (s.optaAt hp d i).2.1 ∧
        physNat t (s.ownPlace d.st + 4 * (2048 + i)) 4 = (s.optaAt hp d i).2.2 ∧
        physNat t (s.ownPlace d.p + 4 * i) 4 = (s.optaAt hp d i).1) ∧
      physNat t (s.ownPlace d.st + 4 * 4096) 4 = optMax ((s.optaAll hp d).map (·.2.1)) ∧
      physNat t (s.ownPlace d.st + 4 * 4097) 4 = optMax ((s.optaAll hp d).map (·.2.2)) := by
  obtain ⟨v, t, effect, wp, ws⟩ := h.optaEffect_writes hd hH hskip
  obtain ⟨elements, am, av⟩ := optaStaged_getD s hp d
  have ls := optaStaged_length s hp d
  have staged : ∀ i < 4098, ∀ x < 2 ^ 32, (s.optaStaged hp d).getD i 0 = x → physNat t (s.ownPlace d.st + 4 * i) 4 = x :=
    fun i hi x hx e => (ws.f32 (by omega) (by rwa [e])).trans e
  have kept : ∀ i < 2048, physNat t (s.ownPlace d.p + 4 * i) 4 = physNat v (s.ownPlace d.p + 4 * i) 4 := fun i hi => by
    have le : s.ownPlace d.p + 8192 ≤ s.ownPlace d.st ∨ s.ownPlace d.st + 16448 ≤ s.ownPlace d.p :=
      hapart.imp (fun l => hd.p.ownPlace_le (k := 8192) hd.st l s) fun l => hd.st.ownPlace_le (k := 16448) hd.p l s
    have lst : (f32Bytes (s.optaStaged hp d)).length = 4 * 4098 := by rw [f32Bytes_length, ls]
    rw [physNat, physNat, ws.bytes_apart (by omega)]
  refine ⟨t, effect, ws.core.trans wp.core, fun i hi => ?_, staged 4096 (by decide) _ (optMax_lt _) am,
    staged 4097 (by decide) _ (optMax_lt _) av⟩
  obtain ⟨bp, bm, bv⟩ := optaAt_lt s hp d i
  have param := optaAll_map_getD s hp d (·.1) hi
  refine ⟨staged i (by omega) _ bm (elements i hi).1, staged (2048 + i) (by omega) _ bv (elements i hi).2, ?_⟩
  rw [kept i hi, wp.f32 (by rwa [List.length_map, optaAll_length]) (by rwa [param]), param]

/-- OPTW's effect outside a step to skip, where codes and maxima lie apart (R406). -/
theorem State.OwnReady.optwEffect_values (h : s.OwnReady) (hd : d.Placed) (hskip : skips s step = false)
    (hmv : d.m.toNat + 2048 ≤ d.v.toNat ∨ d.v.toNat + 2048 ≤ d.m.toNat)
    (hms : d.m.toNat + 2048 ≤ d.ms.toNat ∨ d.ms.toNat + 8 ≤ d.m.toNat)
    (hvs : d.v.toNat + 2048 ≤ d.ms.toNat ∨ d.ms.toNat + 8 ≤ d.v.toNat) :
    ∃ t, optwEffect step d s = .ok ((), t) ∧ t.core = s.core ∧
      (∀ i < 2048,
        physGet t (s.ownPlace d.m + i) = optCode (s.core.c8.toList.map (·.toNat)) (s.word32 d.st 4096) (s.word32 d.st i) ∧
        physGet t (s.ownPlace d.v + i) = optCode (s.core.c8.toList.map (·.toNat)) (s.word32 d.st 4097) (s.word32 d.st (2048 + i)) ∧
        physTag t (s.ownPlace d.m + i) = codeTag ∧ physTag t (s.ownPlace d.v + i) = codeTag) ∧
      physNat t (s.ownPlace d.ms + 4 * 0) 4 = s.word32 d.st 4096 ∧ physNat t (s.ownPlace d.ms + 4 * 1) 4 = s.word32 d.st 4097 := by
  obtain ⟨u, v, t, effect, wm, wv, ws⟩ := h.optwEffect_writes hd hskip
  have lm := optwCodes_length s d.st (s.word32 d.st 4096)
  have lv := optwCodes_length s (d.st + 8192) (s.word32 d.st 4097)
  have ls : (f32Bytes [s.word32 d.st 4096, s.word32 d.st 4097]).length = 8 := f32Bytes_length _
  have mv : s.ownPlace d.m + 2048 ≤ s.ownPlace d.v ∨ s.ownPlace d.v + 2048 ≤ s.ownPlace d.m :=
    hmv.imp (fun l => hd.m.ownPlace_le (k := 2048) hd.v l s) fun l => hd.v.ownPlace_le (k := 2048) hd.m l s
  have mms : s.ownPlace d.m + 2048 ≤ s.ownPlace d.ms ∨ s.ownPlace d.ms + 8 ≤ s.ownPlace d.m :=
    hms.imp (fun l => hd.m.ownPlace_le (k := 2048) hd.ms l s) fun l => hd.ms.ownPlace_le (k := 8) hd.m l s
  have vms : s.ownPlace d.v + 2048 ≤ s.ownPlace d.ms ∨ s.ownPlace d.ms + 8 ≤ s.ownPlace d.v :=
    hvs.imp (fun l => hd.v.ownPlace_le (k := 2048) hd.ms l s) fun l => hd.ms.ownPlace_le (k := 8) hd.v l s
  have second : ∀ i < 2048, s.word32 (d.st + 8192) i = s.word32 d.st (2048 + i) := fun i _ => by
    have place : s.ownPlace (d.st + 8192) = s.ownPlace d.st + 8192 := hd.st.ownPlace_add (j := 8192) (m := 8) (by decide) s
    rw [State.word32, State.word32, place, Nat.mul_add, Nat.add_assoc]
  have first_max := ws.f32 (i := 0) (by simp) (by rw [List.getD_cons_zero]; exact s.word32_lt d.st 4096)
  have second_max := ws.f32 (i := 1) (by simp) (by rw [List.getD_cons_succ, List.getD_cons_zero]; exact s.word32_lt d.st 4097)
  rw [List.getD_cons_zero] at first_max
  rw [List.getD_cons_succ, List.getD_cons_zero] at second_max
  refine ⟨t, effect, ws.core.trans (wv.core.trans wm.core), fun i hi => ⟨?_, ?_, ?_, ?_⟩, first_max, second_max⟩
  · rw [ws.byte, if_neg (by omega), wv.byte, if_neg (by omega), wm.byte, if_pos (by omega), Nat.add_sub_cancel_left,
      optwCodes_getD _ _ _ hi]
  · rw [ws.byte, if_neg (by omega), wv.byte, if_pos (by omega), Nat.add_sub_cancel_left, optwCodes_getD _ _ _ hi, second i hi]
  · rw [ws.tag_apart (.inr (.inr rfl)), wv.tag_apart (by omega), wm.tagged, if_pos ⟨by decide, by omega, by omega⟩, mergeTag_all]
  · rw [ws.tag_apart (.inr (.inr rfl)), wv.tagged, if_pos ⟨by decide, by omega, by omega⟩, mergeTag_all]
end

section
variable {s : State} {o : RArgs}

/-- OPTA in a step to skip commits and writes nothing (R402). -/
theorem execOpta_skipped (h : s.OptReady (s.core.s o.a.toNat)) (ha : s.core.Full o.a) (hb : s.core.Full o.b) (hH : InOwn s.core.optH 64)
    (hH8 : s.core.optH.toNat % 8 = 0) (hskip : skips s ((s.core.s o.b.toNat).setWidth 32) = true) :
    execOpta o s = .next (s.now fun c => (commitRegion c).renewed) := by
  have skip : skips (s.optCommitted (s.core.s o.a.toNat)) ((s.core.s o.b.toNat).setWidth 32) = true := hskip
  refine execOpta_own (t := s.optCommitted (s.core.s o.a.toNat)) h ha hb hH hH8 ?_ rfl
  rw [h.committed_ready.optaEffect_eq h.placed hH, if_pos skip]

/-- OPTW in a step to skip commits and writes nothing (R402). -/
theorem execOptw_skipped (h : s.OptReady (s.core.s o.a.toNat)) (ha : s.core.Full o.a) (hb : s.core.Full o.b)
    (hskip : skips s ((s.core.s o.b.toNat).setWidth 32) = true) :
    execOptw o s = .next (s.now fun c => (commitRegion c).renewed) := by
  have skip : skips (s.optCommitted (s.core.s o.a.toNat)) ((s.core.s o.b.toNat).setWidth 32) = true := hskip
  refine execOptw_own (t := s.optCommitted (s.core.s o.a.toNat)) h ha hb ?_ rfl
  rw [h.committed_ready.optwEffect_eq h.placed, if_pos skip]

/-- OPTA outside a step to skip, where parameters and staging lie apart (R405). -/
theorem execOpta_values (h : s.OptReady (s.core.s o.a.toNat)) (ha : s.core.Full o.a) (hb : s.core.Full o.b) (hH : InOwn s.core.optH 64)
    (hH8 : s.core.optH.toNat % 8 = 0) (hskip : skips s ((s.core.s o.b.toNat).setWidth 32) = false) {d : OptGroup}
    (hd : s.optGroup (s.core.s o.a.toNat) = d) (hapart : d.p.toNat + 8192 ≤ d.st.toNat ∨ d.st.toNat + 16448 ≤ d.p.toNat) :
    ∃ t, execOpta o s = .next t ∧ t.core = (commitRegion s.core).renewed ∧
      (∀ i < 2048, physNat t (s.ownPlace d.st + 4 * i) 4 = (s.optaAt s.core.optH d i).2.1 ∧
        physNat t (s.ownPlace d.st + 4 * (2048 + i)) 4 = (s.optaAt s.core.optH d i).2.2 ∧
        physNat t (s.ownPlace d.p + 4 * i) 4 = (s.optaAt s.core.optH d i).1) ∧
      physNat t (s.ownPlace d.st + 4 * 4096) 4 = optMax ((s.optaAll s.core.optH d).map (·.2.1)) ∧
      physNat t (s.ownPlace d.st + 4 * 4097) 4 = optMax ((s.optaAll s.core.optH d).map (·.2.2)) := by
  obtain ⟨t, effect, core, elements, am, av⟩ := h.committed_ready.optaEffect_values (d := d) (hd ▸ h.placed) hH hskip hapart
  have same : ∀ i, (s.optCommitted (s.core.s o.a.toNat)).optaAt s.core.optH d i = s.optaAt s.core.optH d i := optCommitted_optaAt _ _
  have all : (s.optCommitted (s.core.s o.a.toNat)).optaAll s.core.optH d = s.optaAll s.core.optH d := List.map_congr_left fun i _ => same i
  simp only [optCommitted_ownPlace, same, all] at elements am av
  refine ⟨t.now Core.renewed, execOpta_own h ha hb hH hH8 (hd ▸ effect) core, renewed_core core, ?_⟩
  simp only [physNat_now]
  exact ⟨elements, am, av⟩

/-- OPTW outside a step to skip, where codes and maxima lie apart (R406). -/
theorem execOptw_values (h : s.OptReady (s.core.s o.a.toNat)) (ha : s.core.Full o.a) (hb : s.core.Full o.b)
    (hskip : skips s ((s.core.s o.b.toNat).setWidth 32) = false) {d : OptGroup} (hd : s.optGroup (s.core.s o.a.toNat) = d)
    (hmv : d.m.toNat + 2048 ≤ d.v.toNat ∨ d.v.toNat + 2048 ≤ d.m.toNat)
    (hms : d.m.toNat + 2048 ≤ d.ms.toNat ∨ d.ms.toNat + 8 ≤ d.m.toNat)
    (hvs : d.v.toNat + 2048 ≤ d.ms.toNat ∨ d.ms.toNat + 8 ≤ d.v.toNat) :
    ∃ t, execOptw o s = .next t ∧ t.core = (commitRegion s.core).renewed ∧
      (∀ i < 2048,
        physGet t (s.ownPlace d.m + i) = optCode (s.core.c8.toList.map (·.toNat)) (s.word32 d.st 4096) (s.word32 d.st i) ∧
        physGet t (s.ownPlace d.v + i) = optCode (s.core.c8.toList.map (·.toNat)) (s.word32 d.st 4097) (s.word32 d.st (2048 + i)) ∧
        physTag t (s.ownPlace d.m + i) = codeTag ∧ physTag t (s.ownPlace d.v + i) = codeTag) ∧
      physNat t (s.ownPlace d.ms + 4 * 0) 4 = s.word32 d.st 4096 ∧ physNat t (s.ownPlace d.ms + 4 * 1) 4 = s.word32 d.st 4097 := by
  obtain ⟨t, effect, core, values⟩ := h.committed_ready.optwEffect_values (d := d) (hd ▸ h.placed) hskip hmv hms hvs
  simp only [optCommitted_ownPlace, optCommitted_word32, optCommitted_c8] at values
  refine ⟨t.now Core.renewed, execOptw_own h ha hb (hd ▸ effect) core, renewed_core core, ?_⟩
  simp only [physNat_now, physGet_now, physTag_now]
  exact values
end

end Sys2Proof.Machine
end

section
/-! ### The statement of the update instructions -/

open Sys2Proof Sys2Proof.Machine

/-- Settles O44: SKIPSET and SKIPCLR commit and change the flag alone; OPTA and OPTW come to their effects on the own scratchpad. -/
theorem optimizer : Obligations.Optimizer := by
  unfold Obligations.Optimizer
  refine ⟨fun s o hc hs ha => ?_, ?_⟩
  · intro step
    have word : (s.core.s o.a.toNat).setWidth 32 = step := BitVec.setWidth_eq_extractLsb' (by decide)
    refine ⟨(execSkipset_calm hc hs ha).trans (by rw [word]; rfl), (execSkipclr_calm hc hs ha).trans ?_⟩
    rw [word]
    split <;> rfl
  · intro s o hc hs ha hb hecc hcan hlines himage hturn hposts step own g d word apart hcid hdesc hal hdal op og om ov oms ost oH
    have inOwn : ∀ {a n}, own a n → InOwn a n := fun h => ⟨h.1, h.2.2⟩
    have hH : InOwn s.core.optH 64 := inOwn oH
    have ready : s.OptReady (s.core.s o.a.toNat) :=
      { cid_lt := hcid, ecc_nil := hecc, turn := hturn, canonical := hcan, lines_nil := hlines, calm := hc, settled := hs
        image_nil := himage, unposted := hposts, desc := inOwn hdesc, desc_aligned := hal
        placed :=
          { p := inOwn op, g := inOwn og, m := inOwn om, v := inOwn ov, ms := inOwn oms, st := inOwn ost
            aligned := by
              simp only [List.forall_mem_cons]
              exact ⟨hdal 0 (by decide), hdal 1 (by decide), hdal 2 (by decide), hdal 3 (by decide), hdal 4 (by decide),
                hdal 5 (by decide), by simp⟩ } }
    refine ⟨fun hflag hstep => ?_, fun hrun => ⟨fun hap => ?_, fun hmv hms hvs => ?_⟩⟩
    · exact ⟨execOpta_skipped ready ha hb hH oH.2.1 (skips_eq_true hflag hstep),
        execOptw_skipped ready ha hb (skips_eq_true hflag hstep)⟩
    · intro h mul fma code m' v' u
      obtain ⟨t, goes, core, elements, am, av⟩ := execOpta_values ready ha hb hH oH.2.1 (skips_eq_false hrun) rfl hap
      have hm : ∀ i, (s.optaAt s.core.optH (s.optGroup (s.core.s o.a.toNat)) i).2.1 = m' i := optaAt_m s _ _
      have hv : ∀ i, (s.optaAt s.core.optH (s.optGroup (s.core.s o.a.toNat)) i).2.2 = v' i := optaAt_v s _ _
      rw [optaAll_map s _ _ hm] at am
      rw [optaAll_map s _ _ hv] at av
      refine ⟨t, goes, core, fun i hi => ?_⟩
      obtain ⟨em, ev, ep⟩ := elements i hi
      rw [optaAt_p, hm, hv] at ep
      exact ⟨em.trans (hm i), ev.trans (hv i), ep, am, av⟩
    · intro table a code
      obtain ⟨t, goes, core, elements, am, av⟩ := execOptw_values ready ha hb (skips_eq_false hrun) rfl hmv hms hvs
      refine ⟨t, goes, core, fun i hi => ?_, am, av⟩
      obtain ⟨cm, cv, tm, tv⟩ := elements i hi
      exact ⟨cm.trans (optCode_eq _ _ _), cv.trans (optCode_eq _ _ _), tm, tv⟩
end
